-- ==== Sys2Proof/Word.lean ====
section
/-! DEFINITION. The word type: a byte, the width of every wire unit and every buffer cell
(00_scope.md R5, R7). -/

namespace Sys2Proof

/-- A byte, an unsigned integer in 0..255 (R7); `W` = 8 (R5). -/
abbrev Byte := BitVec 8

end Sys2Proof
end

