-- ==== Sys2Proof/Config.lean ====
section
/-! DEFINITION. The block kinds, the fixed parameters of the block (00_scope.md R5), the parameters the
model takes as arguments (R6), and the free values. -/

namespace Sys2Proof

/-- The four block kinds, a closed type (10_state.md R21). -/
inductive Kind where
  | general
  | basic
  | pedalAssist
  | throttle
deriving DecidableEq, Repr, Inhabited

/-- The first offset the inbound sum covers, `P_RX_SUM_FROM` (R6): 0 includes the block-id byte, 1 excludes it. -/
inductive SumFrom where
  | zero
  | one
deriving DecidableEq, Repr, Inhabited

/-- The offset itself. -/
def SumFrom.offset : SumFrom → Nat
  | .zero => 0
  | .one => 1

/-- The parameters of R6. They never change during a run (10_state.md R20). -/
structure Params where
  /-- `P_VERIFY_RX`: whether a completed read frame is verified before dispatch. -/
  verifyRx : Bool
  /-- `P_RX_SUM_FROM`: read only when `verifyRx` is true (and by CSU.RXOK invoked on its own). -/
  rxSumFrom : SumFrom
  /-- `P_WFAIL_ADVANCE`: whether a failed write under chain mode still advances. -/
  wfailAdvance : Bool
deriving DecidableEq, Repr

namespace Config

/-- `idx(k)` (R5). -/
def idx : Kind → Nat
  | .general => 0
  | .basic => 1
  | .pedalAssist => 2
  | .throttle => 3

/-- `ID[k]`, the identifying byte of a kind (R5). -/
def blockId : Kind → Byte
  | .general => 0x51#8
  | .basic => 0x52#8
  | .pedalAssist => 0x53#8
  | .throttle => 0x54#8

/-- `LEN[k]`, the length of a completed read frame, counted from the block-id byte (R5). -/
def len : Kind → Nat
  | .general => 19
  | .basic => 27
  | .pedalAssist => 14
  | .throttle => 9

/-- `PLEN[k]`, the number of payload bytes of a write request; General has none (R5). -/
def plen : Kind → Option Nat
  | .general => none
  | .basic => some 24
  | .pedalAssist => some 11
  | .throttle => some 6

/-- `ACK_LEN` (R5). -/
def ackLen : Nat := 2

/-- `CMD_READ` (R5). -/
def cmdRead : Byte := 0x11#8

/-- `CMD_WRITE` (R5). -/
def cmdWrite : Byte := 0x16#8

/-- `GEN_TAIL`, the two bytes after the block id in the General read request (R5). -/
def genTail : List Byte := [0x04#8, 0xB0#8]

/-- `SENTINEL` (R5). -/
def sentinel : Byte := 0xFF#8

/-- `WHEEL_700C` (R5). -/
def wheel700C : Byte := 0x37#8

/-- `BUF_DEPTH`, the capacity of the accumulation buffer (R5). -/
def bufDepth : Nat := 27

/-- DESIGN CHOICE (log entry 6): `P_RX_SUM_FROM` has no default (R6, D7), so it is a constant without a body. -/
opaque rxSumFrom : SumFrom

/-- DESIGN CHOICE (log entry 7): the result of CSU.RXOK on a list shorter than two bytes, which R147 does not
state; a free value of the operands. -/
opaque rxokShort : SumFrom → List Byte → Bool

/-- The parameters a model has unless it is given others (R6's defaults; `P_RX_SUM_FROM` has none). -/
def defaultParams : Params :=
  { verifyRx := false, rxSumFrom := rxSumFrom, wfailAdvance := false }

end Config
end Sys2Proof
end

