-- ==== Sys2Proof/Syntax.lean ====
section
/-! DEFINITION. The operands and the instructions: contexts, field domains and records (10_state.md R21 to
R28), the operand forms, and one constructor of `Instr` for every row of spec/opcode_table.json. -/

namespace Sys2Proof

/-- The direction of an exchange (10_state.md R31). -/
inductive Dir where
  | read
  | write
deriving DecidableEq, Repr

/-- The context `(dir, k)` of an armed expectation (R31). -/
structure Ctx where
  dir : Dir
  kind : Kind
deriving DecidableEq, Repr

/-- `Disp8` (R23): the sentinel tag `Display`, or a number. -/
inductive Disp8 where
  | display
  | num (n : Byte)
deriving DecidableEq, Repr

/-- `Und8` (R23): the sentinel tag `Undetermined`, or a number. -/
inductive Und8 where
  | undetermined
  | num (n : Byte)
deriving DecidableEq, Repr

/-- `Wheel` (R23): 700C, or a whole number of inches 0..255. -/
inductive Wheel where
  | w700C
  | inches (n : Byte)
deriving DecidableEq, Repr

/-- The six labels of the General voltage (R28, decode only). -/
inductive Volt where
  | v24
  | v36
  | v48
  | v60
  | v24to48
  | v24to60
deriving DecidableEq, Repr

/-- The labels of the speed-meter model (R28). -/
inductive SpeedModel where
  | external
  | internal
  | motorphase
deriving DecidableEq, Repr

/-- The labels of `pedal_type` (R28). -/
inductive PedalType where
  | noPedal
  | dhSensor12
  | bbSensor32
  | doubleSignal24
deriving DecidableEq, Repr

/-- The labels of the Throttle `mode` (R28). -/
inductive ThrottleMode where
  | speed
  | current
deriving DecidableEq, Repr

/-- `Enum_T` (R23): a label of `T`, a number kept as it is, or the invalid label that only LOADPROFILE can bring. -/
inductive EnumField (T : Type) where
  | label (l : T)
  | num (n : Byte)
  | invalidLabel
deriving DecidableEq, Repr

/-- `Text_2` (R23): two bytes as received. -/
structure Text2 where
  c0 : Byte
  c1 : Byte
deriving DecidableEq, Repr

/-- `Text_4` (R23): four bytes as received. -/
structure Text4 where
  c0 : Byte
  c1 : Byte
  c2 : Byte
  c3 : Byte
deriving DecidableEq, Repr

/-- Ten per-assist-level values, assist levels 0 to 9 in order (R25). -/
structure Levels where
  l0 : Byte
  l1 : Byte
  l2 : Byte
  l3 : Byte
  l4 : Byte
  l5 : Byte
  l6 : Byte
  l7 : Byte
  l8 : Byte
  l9 : Byte
deriving DecidableEq, Repr

/-- The General record (R24). -/
structure GeneralRecord where
  manufacturer : Text4
  model : Text4
  hwVer : Text2
  fwVer : Text4
  voltage : Volt
  maxCurrent : Byte
deriving DecidableEq, Repr

/-- The Basic record (R25); `assistCurrent` and `assistSpeed` are its twenty per-assist-level fields. -/
structure BasicRecord where
  lowBatteryProtect : Byte
  currentLimit : Byte
  assistCurrent : Levels
  assistSpeed : Levels
  wheelSize : Wheel
  speedmeterModel : EnumField SpeedModel
  speedmeterSignals : Byte
deriving DecidableEq, Repr

/-- The PedalAssist record, in wire order (R26). -/
structure PedalRecord where
  pedalType : EnumField PedalType
  designatedAssist : Disp8
  speedLimit : Disp8
  startCurrent : Byte
  slowStartMode : Byte
  startupDegree : Byte
  workMode : Und8
  timeOfStop : Byte
  currentDecay : Byte
  stopDecay : Byte
  keepCurrent : Byte
deriving DecidableEq, Repr

/-- The Throttle record, in wire order (R27). -/
structure ThrottleRecord where
  startVoltage : Byte
  endVoltage : Byte
  mode : EnumField ThrottleMode
  designatedAssist : Disp8
  speedLimit : Disp8
  startCurrent : Byte
deriving DecidableEq, Repr

/-- The four slots of PRF, each absent (`none`) or one record of its own type (R22). -/
structure Profile where
  info : Option GeneralRecord
  basic : Option BasicRecord
  pedal : Option PedalRecord
  throttle : Option ThrottleRecord
deriving DecidableEq, Repr

/-- The profile with all four slots absent (R44). -/
def Profile.empty : Profile := { info := none, basic := none, pedal := none, throttle := none }

/-- The operands that have no binary form in the spec (30_encoding.md R121, the table's LOADPROFILE row):
they travel beside the command word. DESIGN CHOICE, log entry 2. -/
inductive Operand where
  | none
  | profile (q : Profile)
  | basic (r : BasicRecord)
  | pedal (r : PedalRecord)
  | throttle (r : ThrottleRecord)
deriving DecidableEq, Repr

/-- One input event as it is presented on the command port: the command word and its operand bytes, and an
operand without binary form where the operation has one. DESIGN CHOICE, log entries 1 and 2. -/
structure Event where
  words : List Byte
  operand : Operand
deriving DecidableEq, Repr

/-- What an instruction is written as: an event of the command port, or a frame on the serial line (R90). -/
inductive Encoding where
  | event (e : Event)
  | frame (bytes : List Byte)
deriving DecidableEq, Repr

/-- The instructions: one constructor for every row of spec/opcode_table.json, in the table's order. -/
inductive Instr where
  -- public operations
  | connect
  | close
  | tfail
  | readall
  | writeall
  | loadprofile (q : Profile)
  | feed (b : Byte)
  | readInfo
  | readBasic
  | readPedal
  | readThrottle
  | writeInfo
  | writeBasic
  | writePedal
  | writeThrottle
  -- pure operations
  | csuSum (b : List Byte)
  | csuAppend (b : List Byte)
  | csuVerify (g : List Byte)
  | csuRxok (f : List Byte)
  | decGeneral (f : List Byte)
  | decBasic (f : List Byte)
  | decPedal (f : List Byte)
  | decThrottle (f : List Byte)
  | encBasic (r : BasicRecord)
  | encPedal (r : PedalRecord)
  | encThrottle (r : ThrottleRecord)
  | rctBasic (r : Byte)
  | rctPedal (r : Byte)
  | rctThrottle (r : Byte)
  -- internal operations
  | fraArm (e : Nat) (c : Ctx)
  | fraCancel
  | completeRead (f : List Byte) (k : Kind)
  | completeWrite (f : List Byte) (k : Kind)
  -- transmit frames; a write request carries its payload and its checksum byte
  | rq5General
  | rq2Basic
  | rq2Pedal
  | rq2Throttle
  | wqBasic (p : List Byte) (c : Byte)
  | wqPedal (p : List Byte) (c : Byte)
  | wqThrottle (p : List Byte) (c : Byte)
  -- received frames; `rest` is the frame without its block-id byte, `r` the result code
  | rrGeneral (rest : List Byte)
  | rrBasic (rest : List Byte)
  | rrPedal (rest : List Byte)
  | rrThrottle (rest : List Byte)
  | waBasic (r : Byte)
  | waPedal (r : Byte)
  | waThrottle (r : Byte)
deriving DecidableEq, Repr

end Sys2Proof
end

