-- ==== Sys2Proof/WellFormed.lean ====
section
/-! DEFINITION. Which terms of `Instr` are instructions of the spec: operand lengths, the checksum byte of a
write request, and the domains of the completion steps. -/

namespace Sys2Proof

/-- The checksum byte a write request frame carries: the sum of its bytes from offset 1 (block id, length byte,
payload) modulo 256 (30_encoding.md R93). -/
def wqChecksum (k : Kind) (p : List Byte) : Byte :=
  p.foldl (· + ·) (Config.blockId k + BitVec.ofNat 8 p.length)

/-- A write request's payload has `PLEN[k]` bytes and its last byte is the checksum (R93). -/
def wellFormedWq (k : Kind) (p : List Byte) (c : Byte) : Bool :=
  decide (Config.plen k = some p.length) && decide (c = wqChecksum k p)

/-- A read response has `LEN[k]` bytes, its block-id byte among them (R94). -/
def wellFormedRr (k : Kind) (rest : List Byte) : Bool :=
  decide (rest.length + 1 = Config.len k)

/-- The well-formed instructions. DEC.k takes any list (R181 gives the other lengths a result) and FRA.ARM any
length (R162 says what it does with each). -/
def Instr.wellFormed : Instr → Bool
  | .connect => true
  | .close => true
  | .tfail => true
  | .readall => true
  | .writeall => true
  | .loadprofile _ => true
  | .feed _ => true
  | .readInfo => true
  | .readBasic => true
  | .readPedal => true
  | .readThrottle => true
  | .writeInfo => true
  | .writeBasic => true
  | .writePedal => true
  | .writeThrottle => true
  | .csuSum _ => true
  | .csuAppend _ => true
  | .csuVerify _ => true
  | .csuRxok f => decide (2 ≤ f.length)   -- R147: "len(F) >= 2"
  | .decGeneral _ => true
  | .decBasic _ => true
  | .decPedal _ => true
  | .decThrottle _ => true
  | .encBasic _ => true
  | .encPedal _ => true
  | .encThrottle _ => true
  | .rctBasic _ => true
  | .rctPedal _ => true
  | .rctThrottle _ => true
  | .fraArm _ _ => true
  | .fraCancel => true
  | .completeRead f k => decide (f.length = Config.len k)   -- R296
  | .completeWrite f k => decide (f.length = Config.ackLen) && decide (k ≠ .general)   -- R298
  | .rq5General => true
  | .rq2Basic => true
  | .rq2Pedal => true
  | .rq2Throttle => true
  | .wqBasic p c => wellFormedWq .basic p c
  | .wqPedal p c => wellFormedWq .pedalAssist p c
  | .wqThrottle p c => wellFormedWq .throttle p c
  | .rrGeneral rest => wellFormedRr .general rest
  | .rrBasic rest => wellFormedRr .basic rest
  | .rrPedal rest => wellFormedRr .pedalAssist rest
  | .rrThrottle rest => wellFormedRr .throttle rest
  | .waBasic _ => true
  | .waPedal _ => true
  | .waThrottle _ => true

end Sys2Proof
end

