-- ==== Sys2Proof/Decode.lean ====
section
/-! DEFINITION. The decoder, total on any bytes: an event of the command port (30_encoding.md R121) or a frame
on the line (R90 to R95, R111, R112) to an instruction, or an error by name; after it the encoder, and the words
of the opcode table. -/

namespace Sys2Proof

/-- Why an encoding is no instruction. -/
inductive DecodeError where
  /-- An event with no command word. -/
  | noCommandWord
  /-- A command word the table does not assign: "it selects no operation" (R121). -/
  | reservedWord (c : Byte)
  /-- The operand bytes or the operand beside them are not those the operation takes. -/
  | operandMismatch (c : Byte)
  /-- A frame of no bytes. -/
  | emptyFrame
  /-- A frame that starts as a read request and is none of the four of R91 and R92. -/
  | notAReadRequest
  /-- A frame that starts as a write request and is of none of the three shapes of R93. -/
  | notAWriteRequest
  /-- A frame that starts with a known block id and has the length of no response of that kind (R94, R95). -/
  | notAResponse (id : Byte)
  /-- A frame whose first byte is neither a command byte nor a block id (R90). -/
  | unknownFirstByte (b : Byte)
deriving DecidableEq, Repr

/-- The command words of R121 with their operands. Every operation of the command port takes exactly the operand
listed for it. -/
def decodeCommand (c : Byte) (args : List Byte) (o : Operand) : Except DecodeError Instr :=
  match c, args, o with
  | 0x00#8, [], .none => .ok .connect
  | 0x01#8, [], .none => .ok .close
  | 0x02#8, [], .none => .ok .tfail
  | 0x03#8, [], .none => .ok .readall
  | 0x04#8, [], .none => .ok .writeall
  | 0x05#8, [], .profile q => .ok (.loadprofile q)
  | 0x06#8, [b], .none => .ok (.feed b)
  | 0x10#8, [], .none => .ok .readInfo
  | 0x11#8, [], .none => .ok .readBasic
  | 0x12#8, [], .none => .ok .readPedal
  | 0x13#8, [], .none => .ok .readThrottle
  | 0x20#8, [], .none => .ok .writeInfo
  | 0x21#8, [], .none => .ok .writeBasic
  | 0x22#8, [], .none => .ok .writePedal
  | 0x23#8, [], .none => .ok .writeThrottle
  | 0x30#8, b, .none => .ok (.csuSum b)
  | 0x31#8, b, .none => .ok (.csuAppend b)
  | 0x32#8, g, .none => .ok (.csuVerify g)
  | 0x33#8, f, .none => .ok (.csuRxok f)
  | 0x50#8, f, .none => .ok (.decGeneral f)
  | 0x51#8, f, .none => .ok (.decBasic f)
  | 0x52#8, f, .none => .ok (.decPedal f)
  | 0x53#8, f, .none => .ok (.decThrottle f)
  | 0x61#8, [], .basic r => .ok (.encBasic r)
  | 0x62#8, [], .pedal r => .ok (.encPedal r)
  | 0x63#8, [], .throttle r => .ok (.encThrottle r)
  | 0x71#8, [r], .none => .ok (.rctBasic r)
  | 0x72#8, [r], .none => .ok (.rctPedal r)
  | 0x73#8, [r], .none => .ok (.rctThrottle r)
  | _, _, _ => .error (.operandMismatch c)

/-- The command words R121 assigns, as the ranges of its table. -/
def isCommandWord (c : Byte) : Bool :=
  let n := c.toNat
  decide (n ≤ 0x06) || (decide (0x10 ≤ n) && decide (n ≤ 0x13)) || (decide (0x20 ≤ n) && decide (n ≤ 0x23))
    || (decide (0x30 ≤ n) && decide (n ≤ 0x33)) || (decide (0x50 ≤ n) && decide (n ≤ 0x53))
    || (decide (0x61 ≤ n) && decide (n ≤ 0x63)) || (decide (0x71 ≤ n) && decide (n ≤ 0x73))

/-- An event of the command port: its first byte is the command word (R121). -/
def decodeEvent (e : Event) : Except DecodeError Instr :=
  match e.words with
  | [] => .error .noCommandWord
  | c :: args => if isCommandWord c then decodeCommand c args e.operand else .error (.reservedWord c)

/-- The bytes after `CMD_READ`: the four read requests (R91, R92). -/
def decodeReadRequest (rest : List Byte) : Except DecodeError Instr :=
  if rest = [0x51#8, 0x04#8, 0xB0#8, 0x05#8] then .ok .rq5General
  else if rest = [0x52#8] then .ok .rq2Basic
  else if rest = [0x53#8] then .ok .rq2Pedal
  else if rest = [0x54#8] then .ok .rq2Throttle
  else .error .notAReadRequest

/-- The bytes after `CMD_WRITE`: block id, length byte, payload, checksum (R93). The checksum byte is kept as it
is; `Instr.wellFormed` says which one the frame must have (log entry 13). -/
def decodeWriteRequest (rest : List Byte) : Except DecodeError Instr :=
  match rest with
  | i :: n :: body =>
    if i = 0x52#8 ∧ n = 0x18#8 ∧ body.length = 25 then .ok (.wqBasic (body.take 24) (body.getD 24 0#8))
    else if i = 0x53#8 ∧ n = 0x0B#8 ∧ body.length = 12 then .ok (.wqPedal (body.take 11) (body.getD 11 0#8))
    else if i = 0x54#8 ∧ n = 0x06#8 ∧ body.length = 7 then .ok (.wqThrottle (body.take 6) (body.getD 6 0#8))
    else .error .notAWriteRequest
  | _ => .error .notAWriteRequest

/-- A response, by its block id and its length (R94, R95, R111). There is no acknowledgement of General (R261). -/
def decodeResponse (i : Byte) (rest : List Byte) : Except DecodeError Instr :=
  if i = 0x51#8 then
    if rest.length = 18 then .ok (.rrGeneral rest) else .error (.notAResponse i)
  else if i = 0x52#8 then
    if rest.length = 26 then .ok (.rrBasic rest)
    else if rest.length = 1 then .ok (.waBasic (rest.headD 0#8)) else .error (.notAResponse i)
  else if i = 0x53#8 then
    if rest.length = 13 then .ok (.rrPedal rest)
    else if rest.length = 1 then .ok (.waPedal (rest.headD 0#8)) else .error (.notAResponse i)
  else if i = 0x54#8 then
    if rest.length = 8 then .ok (.rrThrottle rest)
    else if rest.length = 1 then .ok (.waThrottle (rest.headD 0#8)) else .error (.notAResponse i)
  else .error (.unknownFirstByte i)

/-- A frame on the serial line: a request of the block (R112) or a response of the device (R111). -/
def decodeFrame (bytes : List Byte) : Except DecodeError Instr :=
  match bytes with
  | [] => .error .emptyFrame
  | b :: rest =>
    if b = 0x11#8 then decodeReadRequest rest
    else if b = 0x16#8 then decodeWriteRequest rest
    else decodeResponse b rest

/-- The decoder. -/
def decode : Encoding → Except DecodeError Instr
  | .event e => decodeEvent e
  | .frame bytes => decodeFrame bytes

/-- A command without operand. -/
def plainEvent (c : Byte) : Encoding := .event { words := [c], operand := .none }

/-- A command with operand bytes. -/
def bytesEvent (c : Byte) (args : List Byte) : Encoding := .event { words := c :: args, operand := .none }

/-- A command whose operand has no binary form. -/
def valueEvent (c : Byte) (o : Operand) : Encoding := .event { words := [c], operand := o }

/-- The encoder (R91 to R95, R121). The four internal operations have no encoding: "Internal operations ... have no
command word" (R121). -/
def encode : Instr → Option Encoding
  | .connect => some (plainEvent 0x00#8)
  | .close => some (plainEvent 0x01#8)
  | .tfail => some (plainEvent 0x02#8)
  | .readall => some (plainEvent 0x03#8)
  | .writeall => some (plainEvent 0x04#8)
  | .loadprofile q => some (valueEvent 0x05#8 (.profile q))
  | .feed b => some (bytesEvent 0x06#8 [b])
  | .readInfo => some (plainEvent 0x10#8)
  | .readBasic => some (plainEvent 0x11#8)
  | .readPedal => some (plainEvent 0x12#8)
  | .readThrottle => some (plainEvent 0x13#8)
  | .writeInfo => some (plainEvent 0x20#8)
  | .writeBasic => some (plainEvent 0x21#8)
  | .writePedal => some (plainEvent 0x22#8)
  | .writeThrottle => some (plainEvent 0x23#8)
  | .csuSum b => some (bytesEvent 0x30#8 b)
  | .csuAppend b => some (bytesEvent 0x31#8 b)
  | .csuVerify g => some (bytesEvent 0x32#8 g)
  | .csuRxok f => some (bytesEvent 0x33#8 f)
  | .decGeneral f => some (bytesEvent 0x50#8 f)
  | .decBasic f => some (bytesEvent 0x51#8 f)
  | .decPedal f => some (bytesEvent 0x52#8 f)
  | .decThrottle f => some (bytesEvent 0x53#8 f)
  | .encBasic r => some (valueEvent 0x61#8 (.basic r))
  | .encPedal r => some (valueEvent 0x62#8 (.pedal r))
  | .encThrottle r => some (valueEvent 0x63#8 (.throttle r))
  | .rctBasic r => some (bytesEvent 0x71#8 [r])
  | .rctPedal r => some (bytesEvent 0x72#8 [r])
  | .rctThrottle r => some (bytesEvent 0x73#8 [r])
  | .fraArm _ _ => none
  | .fraCancel => none
  | .completeRead _ _ => none
  | .completeWrite _ _ => none
  | .rq5General => some (.frame [0x11#8, 0x51#8, 0x04#8, 0xB0#8, 0x05#8])
  | .rq2Basic => some (.frame [0x11#8, 0x52#8])
  | .rq2Pedal => some (.frame [0x11#8, 0x53#8])
  | .rq2Throttle => some (.frame [0x11#8, 0x54#8])
  | .wqBasic p c => some (.frame ([0x16#8, 0x52#8, 0x18#8] ++ p ++ [c]))
  | .wqPedal p c => some (.frame ([0x16#8, 0x53#8, 0x0B#8] ++ p ++ [c]))
  | .wqThrottle p c => some (.frame ([0x16#8, 0x54#8, 0x06#8] ++ p ++ [c]))
  | .rrGeneral rest => some (.frame (0x51#8 :: rest))
  | .rrBasic rest => some (.frame (0x52#8 :: rest))
  | .rrPedal rest => some (.frame (0x53#8 :: rest))
  | .rrThrottle rest => some (.frame (0x54#8 :: rest))
  | .waBasic r => some (.frame [0x52#8, r])
  | .waPedal r => some (.frame [0x53#8, r])
  | .waThrottle r => some (.frame [0x54#8, r])

/-- How many bytes an encoding has (its operand without binary form not counted). -/
def Encoding.length : Encoding → Nat
  | .event e => e.words.length
  | .frame bytes => bytes.length

/-- How many bytes the spec gives an instruction: the lengths of the five frame formats (R90), and for a command one
command word and its operand bytes (R121). The internal operations have none. -/
def Instr.specLength : Instr → Option Nat
  | .connect => some 1
  | .close => some 1
  | .tfail => some 1
  | .readall => some 1
  | .writeall => some 1
  | .loadprofile _ => some 1
  | .feed _ => some 2
  | .readInfo => some 1
  | .readBasic => some 1
  | .readPedal => some 1
  | .readThrottle => some 1
  | .writeInfo => some 1
  | .writeBasic => some 1
  | .writePedal => some 1
  | .writeThrottle => some 1
  | .csuSum b => some (b.length + 1)
  | .csuAppend b => some (b.length + 1)
  | .csuVerify g => some (g.length + 1)
  | .csuRxok f => some (f.length + 1)
  | .decGeneral f => some (f.length + 1)
  | .decBasic f => some (f.length + 1)
  | .decPedal f => some (f.length + 1)
  | .decThrottle f => some (f.length + 1)
  | .encBasic _ => some 1
  | .encPedal _ => some 1
  | .encThrottle _ => some 1
  | .rctBasic _ => some 2
  | .rctPedal _ => some 2
  | .rctThrottle _ => some 2
  | .fraArm _ _ => none
  | .fraCancel => none
  | .completeRead _ _ => none
  | .completeWrite _ _ => none
  | .rq5General => some 5
  | .rq2Basic => some 2
  | .rq2Pedal => some 2
  | .rq2Throttle => some 2
  | .wqBasic _ _ => some 28
  | .wqPedal _ _ => some 15
  | .wqThrottle _ _ => some 10
  | .rrGeneral _ => some 19
  | .rrBasic _ => some 27
  | .rrPedal _ => some 14
  | .rrThrottle _ => some 9
  | .waBasic _ => some 2
  | .waPedal _ => some 2
  | .waThrottle _ => some 2

/-- The `RX` line of the script notation: one FEED per byte, in order (R123). -/
def rxEvents (bytes : List Byte) : List Event :=
  bytes.map fun b => { words := [0x06#8, b], operand := .none }

/-! ### The words of the opcode table -/

/-- The ten levels, all 0. -/
def zeroLevels : Levels := ⟨0#8, 0#8, 0#8, 0#8, 0#8, 0#8, 0#8, 0#8, 0#8, 0#8⟩

/-- The Basic record of 24 zero payload bytes. -/
def zeroBasic : BasicRecord :=
  { lowBatteryProtect := 0#8, currentLimit := 0#8, assistCurrent := zeroLevels, assistSpeed := zeroLevels,
    wheelSize := .inches 0#8, speedmeterModel := .label .external, speedmeterSignals := 0#8 }

/-- The PedalAssist record of 11 zero payload bytes. -/
def zeroPedal : PedalRecord :=
  { pedalType := .label .noPedal, designatedAssist := .num 0#8, speedLimit := .num 0#8, startCurrent := 0#8,
    slowStartMode := 0#8, startupDegree := 0#8, workMode := .num 0#8, timeOfStop := 0#8, currentDecay := 0#8,
    stopDecay := 0#8, keepCurrent := 0#8 }

/-- The Throttle record of 6 zero payload bytes. -/
def zeroThrottle : ThrottleRecord :=
  { startVoltage := 0#8, endVoltage := 0#8, mode := .label .speed, designatedAssist := .num 0#8,
    speedLimit := .num 0#8, startCurrent := 0#8 }

/-- How many operand bytes of zero follow a command word that the table lists alone (log entry 12): one for FEED and
RCT.k, two for CSU.RXOK (R147 asks for at least two), `LEN[k]` for DEC.k, none for the others. -/
def zeroArgs (c : Byte) : Nat :=
  match c with
  | 0x06#8 => 1
  | 0x33#8 => 2
  | 0x50#8 => 19
  | 0x51#8 => 27
  | 0x52#8 => 14
  | 0x53#8 => 9
  | 0x71#8 => 1
  | 0x72#8 => 1
  | 0x73#8 => 1
  | _ => 0

/-- The operand of zeros beside a command word that takes one without binary form. -/
def zeroOperand (c : Byte) : Operand :=
  match c with
  | 0x05#8 => .profile Profile.empty
  | 0x61#8 => .basic zeroBasic
  | 0x62#8 => .pedal zeroPedal
  | 0x63#8 => .throttle zeroThrottle
  | _ => .none

/-- The event of a command word that the table lists alone, its operand zero. -/
def wordEvent (c : Byte) : Event :=
  { words := c :: List.replicate (zeroArgs c) 0#8, operand := zeroOperand c }

/-- The bytes of a table word: the byte at bits 7..0 is the first. -/
def wordBytes : Nat → Nat → List Byte
  | 0, _ => []
  | n + 1, w => BitVec.ofNat 8 w :: wordBytes n (w / 256)

/-- A write request that the table lists by its first three bytes, the bytes after them zero up to `PLEN[k] + 4`. -/
def padFrame (bytes : List Byte) : List Byte :=
  if bytes.headD 0#8 = 0x16#8 then
    bytes ++ List.replicate ((bytes.getD 2 0#8).toNat + 4 - bytes.length) 0#8
  else bytes

/-- The instruction a decoding gives, if any. -/
def decoded (r : Except DecodeError Instr) : Option Instr :=
  match r with
  | .ok i => some i
  | .error _ => none

/-- The instruction the decoder reads from a table row's bits. A row of one byte is a command word of the command
port; a longer row is a frame, or else a command word with its operand bytes (log entry 12). -/
def decodeTableWord (nbits w : Nat) : Option Instr :=
  match wordBytes (nbits / 8) w with
  | [c] => decoded (decodeEvent (wordEvent c))
  | bytes =>
    match decodeFrame (padFrame bytes) with
    | .ok i => some i
    | .error _ => decoded (decodeEvent { words := bytes, operand := .none })

/-- The input events by which the instruction of a table row comes to the block: a command is one event; a received
frame comes as one FEED per byte; a transmit frame is no input event (log entries 10 to 12). -/
def tableEvents (nbits w : Nat) : List Event :=
  match wordBytes (nbits / 8) w with
  | [c] => [wordEvent c]
  | bytes =>
    match decodeFrame (padFrame bytes) with
    | .ok (.rq5General) | .ok (.rq2Basic) | .ok (.rq2Pedal) | .ok (.rq2Throttle) => []
    | .ok (.wqBasic _ _) | .ok (.wqPedal _ _) | .ok (.wqThrottle _ _) => []
    | .ok _ => rxEvents bytes
    | .error _ => [{ words := bytes, operand := .none }]

end Sys2Proof
end

