-- ==== Sys2Proof/Machine/State.lean ====
section
/-! DEFINITION. The state of the block (10_state.md R20), its outputs (R40 to R42), its causes (60_exceptions.md
R330), why a step of the model stops, and the state after reset (R44). -/

namespace Sys2Proof.Machine

/-- The names of the fields a result code can blame (44_result_code.md R262, R264, R266). -/
inductive FieldName where
  | lowBatteryProtect
  | currentLimit
  | assistCurrent (level : Fin 10)
  | assistSpeed (level : Fin 10)
  | wheelSize
  | speedmeterSignals
  | pedalType
  | designatedAssist
  | speedLimit
  | startCurrent
  | slowStartMode
  | startupDegree
  | workMode
  | timeOfStop
  | currentDecay
  | stopDecay
  | keepCurrent
  | startVoltage
  | endVoltage
  | mode
deriving DecidableEq, Repr

/-- A verdict of the result-code translator (44_result_code.md R260). -/
inductive Verdict where
  | success
  | fieldError (kind : Kind) (field : FieldName)
  | unknownCode (code : Byte)
deriving DecidableEq, Repr

/-- The events of R41. `blockWritten k none` is the document's `BlockWritten(k, null)`. -/
inductive OutEvent where
  | blockRead (kind : Kind)
  | blockWritten (kind : Kind) (error : Option Verdict)
  | transportState (connected : Bool)
deriving DecidableEq, Repr

/-- The thirteen causes with the information each records (R330), in the order of their codes. -/
inductive Cause where
  | wBusy (ctx : Ctx) (need : Nat)
  | wStray (byte : Byte)
  | wRearm (ctx : Ctx) (dropped : Nat) (need : Nat)
  | wUnknownId (got : Byte) (expected : Kind)
  | eWriteRejected (kind : Kind) (code : Byte)
  | eTransport
  | wNotConnected
  | wAlreadyConnected
  | wGeneralWrite
  | wNoRecord (kind : Kind)
  | wEncRange (kind : Kind)
  | wArmLen (length : Nat)
  | eRxChecksum (kind : Kind) (frame : List Byte)
deriving DecidableEq, Repr

/-- One output: a transmit frame, an event, or a log record (R40, R41, R42). -/
inductive Output where
  | tx (frame : List Byte)
  | ev (event : OutEvent)
  | log (cause : Cause)
deriving DecidableEq, Repr

/-- What a pure operation returns to its caller (30_encoding.md R120). -/
inductive Result where
  /-- of CSU.SUM -/
  | byte (b : Byte)
  /-- of CSU.APPEND, and the payload of ENC.k -/
  | bytes (b : List Byte)
  /-- of CSU.VERIFY and CSU.RXOK -/
  | flag (b : Bool)
  /-- of DEC.GENERAL -/
  | general (r : GeneralRecord)
  /-- of DEC.BASIC -/
  | basic (r : BasicRecord)
  /-- of DEC.PEDAL -/
  | pedal (r : PedalRecord)
  /-- of DEC.THROTTLE -/
  | throttle (r : ThrottleRecord)
  /-- `DEC_ERR` (42_codec_decode.md R181) -/
  | decErr
  /-- `ENC_ERR` (43_codec_encode.md R224) -/
  | encErr
  /-- of RCT.k -/
  | verdict (v : Verdict)
deriving DecidableEq, Repr

/-- The stops of the model. Both are raised only by a completion step that is given operands outside the domain of
its rule; in a state that meets 10_state.md R36 no event reaches one. Safe: the machine has no such behaviour. -/
inductive Fault where
  /-- Raised by COMPLETE.READ and COMPLETE.WRITE on a frame whose length is not the one the rule is stated for
  (`LEN[k]`, R296; 2, R298). Safe. -/
  | completionLength
  /-- Raised by COMPLETE.WRITE for General, which has no translator (44_result_code.md R261). Safe. -/
  | noTranslator
deriving DecidableEq, Repr

/-- The refusals of the model. -/
inductive Refusal where
  /-- Raised by `exec` on an instruction that has no meaning yet. Safe. -/
  | notModelled (mnemonic : String)
  /-- Raised by `step` on an event that is no input event of the spec: no command word at all, or an assigned command
  word without the operand its operation takes (log entry 3). Safe. -/
  | malformedEvent (error : DecodeError)
deriving DecidableEq, Repr

/-- The whole state: the tuple of R20, the outputs, and the model's own fields `input`, `ret`, `params`. -/
structure State where
  /-- `P`, the profile register file (R22). -/
  prf : Profile
  /-- The byte countdown (R30). -/
  need : Nat
  /-- The context of the armed expectation, meaningful only while `need > 0` (R31). -/
  ctx : Ctx
  /-- The accumulation buffer, in order of arrival (R35). -/
  buf : List Byte
  /-- The chain-mode flag (R33). -/
  chain : Bool
  /-- The transport-ready flag (R34). -/
  conn : Bool
  /-- The three output histories, in the order of output (R40 to R42, 20_memory.md R71; log entry 9). -/
  out : List Output
  /-- What the last pure operation returned (the model's own field; log entry 8). -/
  ret : Option Result
  /-- The input events not yet handled, oldest first (the model's own field; 00_scope.md R11; log entry 1). -/
  input : List Event
  /-- The parameters of 00_scope.md R6 (the model's own field; no step changes it; log entry 6). -/
  params : Params
deriving DecidableEq, Repr

/-- The state after reset (R44). `ctx` is unspecified there: DESIGN CHOICE, the value R44 offers (log entry 5). -/
def State.reset : State :=
  { prf := Profile.empty, need := 0, ctx := { dir := .read, kind := .general }, buf := [], chain := false,
    conn := false, out := [], ret := none, input := [], params := Config.defaultParams }

end Sys2Proof.Machine
end

