-- ==== Sys2Proof/Machine/Ops.lean ====
section
/-! DEFINITION. The named operations over state: the outputs, the causes, the accumulation buffer, the profile
register file, and the plain field writes (00_scope.md R9). -/

namespace Sys2Proof.Machine

/-! ### Outputs -/

/-- Append one output to the histories. -/
def pushOut (o : Output) (s : State) : State := { s with out := s.out ++ [o] }

/-- `send F`: append `F`, as one frame, to the transmit output (R9, 10_state.md R40). -/
def send (f : List Byte) (s : State) : State := pushOut (.tx f) s

/-- `emit e`: append an event to the event output (R9, R41). -/
def emit (e : OutEvent) (s : State) : State := pushOut (.ev e) s

/-- TAKING AN EXCEPTION: `raise C(info)` appends the record to the log; it "saves nothing and transfers control
nowhere", and there is nothing to return from (60_exceptions.md R357, R358; 10_state.md R42). -/
def raise (c : Cause) (s : State) : State := pushOut (.log c) s

/-- The code a realisation puts on its log port (60_exceptions.md R330). -/
def causeCode : Cause → Nat
  | .wBusy _ _ => 1
  | .wStray _ => 2
  | .wRearm _ _ _ => 3
  | .wUnknownId _ _ => 4
  | .eWriteRejected _ _ => 5
  | .eTransport => 6
  | .wNotConnected => 7
  | .wAlreadyConnected => 8
  | .wGeneralWrite => 9
  | .wNoRecord _ => 10
  | .wEncRange _ => 11
  | .wArmLen _ => 12
  | .eRxChecksum _ _ => 13

/-- The transmit frame of an output. -/
def txOf : Output → Option (List Byte)
  | .tx f => some f
  | _ => none

/-- The event of an output. -/
def evOf : Output → Option OutEvent
  | .ev e => some e
  | _ => none

/-- The log record of an output. -/
def logOf : Output → Option Cause
  | .log c => some c
  | _ => none

/-- `tx`, the sequence of frames sent (R40). -/
def txHistory (s : State) : List (List Byte) := s.out.filterMap txOf

/-- `ev`, the sequence of events emitted (R41). -/
def evHistory (s : State) : List OutEvent := s.out.filterMap evOf

/-- `log`, the sequence of records raised (R42). -/
def logHistory (s : State) : List Cause := s.out.filterMap logOf

/-- The transmit history as a byte stream (R40). -/
def txStream (s : State) : List Byte := (txHistory s).flatten

/-! ### The accumulation buffer and frames -/

/-- `MemRead(addr, n)`: `n` bytes of a buffer or frame from offset `addr` (R9). -/
def memRead (m : List Byte) (addr n : Nat) : List Byte := (m.drop addr).take n

/-- `MemWrite(addr, n, v)` with `n` the length of `v`: the bytes of `v` from offset `addr` on. The block only appends
(R9). -/
def memWrite (m : List Byte) (addr : Nat) (v : List Byte) : List Byte :=
  m.take addr ++ v ++ m.drop (addr + v.length)

/-- `F[i]`, for an offset inside the frame; every caller has checked the length (R8). -/
def byteAt (f : List Byte) (i : Nat) : Byte := f.getD i 0#8

/-- The capacity of the accumulation buffer holds (R5, 20_memory.md R60). A buffer is a list of bytes in order of
arrival, so it has one form only (log entry 16). -/
def bufWf (m : List Byte) : Bool := decide (m.length ≤ Config.bufDepth)

/-- `buf <- []`. -/
def clearBuf (s : State) : State := { s with buf := [] }

/-- The accepting half of FEED: append the byte, count it (41_frame_assembler.md R163). -/
def acceptByte (b : Byte) (s : State) : State :=
  { s with buf := memWrite s.buf s.buf.length [b], need := s.need - 1 }

/-- The installing half of FRA.ARM (R161). -/
def installExpectation (e : Nat) (c : Ctx) (s : State) : State :=
  { s with buf := [], need := e, ctx := c }

/-- `buf <- []; need <- 0`, the body of FRA.CANCEL (R167). -/
def disarm (s : State) : State := { s with buf := [], need := 0 }

/-! ### Flags, results and input -/

/-- `chain <- b`. -/
def setChain (b : Bool) (s : State) : State := { s with chain := b }

/-- `conn <- b`. -/
def setConn (b : Bool) (s : State) : State := { s with conn := b }

/-- Return a pure operation's value to its caller. -/
def setRet (r : Result) (s : State) : State := { s with ret := some r }

/-- Take the events up to `rest` off the input. -/
def setInput (rest : List Event) (s : State) : State := { s with input := rest }

/-! ### The profile register file -/

/-- A record of one of the four kinds: what a slot can hold (10_state.md R22). -/
inductive Record where
  | general (r : GeneralRecord)
  | basic (r : BasicRecord)
  | pedal (r : PedalRecord)
  | throttle (r : ThrottleRecord)
deriving DecidableEq, Repr

/-- `P[k] <- r` on the register file: the slot of the record's own kind, written as a whole (R22). -/
def storeRecord (p : Profile) : Record → Profile
  | .general r => { p with info := some r }
  | .basic r => { p with basic := some r }
  | .pedal r => { p with pedal := some r }
  | .throttle r => { p with throttle := some r }

/-- `P[k]`: the record of the slot of kind `k`, or absent (R9, R22). -/
def slotOf (p : Profile) : Kind → Option Record
  | .general => p.info.map .general
  | .basic => p.basic.map .basic
  | .pedalAssist => p.pedal.map .pedal
  | .throttle => p.throttle.map .throttle

/-- `P <- Q`, all four slots (45_session.md R305). -/
def setProfile (q : Profile) (s : State) : State := { s with prf := q }

/-- `P[k] <- r` on the state. -/
def storeSlot (r : Record) (s : State) : State := setProfile (storeRecord s.prf r) s

end Sys2Proof.Machine
end

