-- ==== Sys2Proof/Machine/Operands.lean ====
section
/-! DEFINITION. How each field domain maps to and from its byte (30_encoding.md R100 to R107), bit slices
(00_scope.md R7), labels and renderings (10_state.md R28, R29). -/

namespace Sys2Proof.Machine

/-- `b[hi:lo]` = `(b >> lo) mod 2^(hi-lo+1)` (00_scope.md R7). -/
def bits (hi lo : Nat) (b : Byte) : Nat := (b.toNat / 2 ^ lo) % 2 ^ (hi - lo + 1)

/-- `dec_disp` (R101). -/
def decDisp (b : Byte) : Disp8 := if b = Config.sentinel then .display else .num b

/-- `enc_disp` (R101). -/
def encDisp : Disp8 → Byte
  | .display => Config.sentinel
  | .num n => n

/-- `dec_und` (R102). -/
def decUnd (b : Byte) : Und8 := if b = Config.sentinel then .undetermined else .num b

/-- `enc_und` (R102). -/
def encUnd : Und8 → Byte
  | .undetermined => Config.sentinel
  | .num n => n

/-- The label of a `pedal_type` wire value (R28). -/
def pedalTypeOfWire : Nat → Option PedalType
  | 0 => some .noPedal
  | 1 => some .dhSensor12
  | 2 => some .bbSensor32
  | 3 => some .doubleSignal24
  | _ => none

/-- The wire value of a `pedal_type` label (R28). -/
def pedalTypeToWire : PedalType → Byte
  | .noPedal => 0#8
  | .dhSensor12 => 1#8
  | .bbSensor32 => 2#8
  | .doubleSignal24 => 3#8

/-- The label of a Throttle `mode` wire value (R28). -/
def throttleModeOfWire : Nat → Option ThrottleMode
  | 0 => some .speed
  | 1 => some .current
  | _ => none

/-- The wire value of a Throttle `mode` label (R28). -/
def throttleModeToWire : ThrottleMode → Byte
  | .speed => 0#8
  | .current => 1#8

/-- `dec_enum`: the label of a wire value of the enumeration, else the number as it is (R103). -/
def decEnum {T : Type} (ofWire : Nat → Option T) (b : Byte) : EnumField T :=
  match ofWire b.toNat with
  | some l => .label l
  | none => .num b

/-- `enc_enum`: the wire value of a label, the literal number, index 0 for an invalid label (R103, R245). -/
def encEnum {T : Type} (toWire : T → Byte) : EnumField T → Byte
  | .label l => toWire l
  | .num n => n
  | .invalidLabel => 0#8

/-- `dec_wheel`: 0x37 is 700C, every other byte `(b + 1) >> 1` inches on unbounded naturals (R104, R7). -/
def decWheel (b : Byte) : Wheel :=
  if b = Config.wheel700C then .w700C else .inches (BitVec.ofNat 8 ((b.toNat + 1) / 2))

/-- `enc_wheel`; `none` is `ENC_ERR`, for a diameter whose double does not fit a byte (R104, R224). -/
def encWheel : Wheel → Option Byte
  | .w700C => some Config.wheel700C
  | .inches n => if n.toNat < 128 then some (BitVec.ofNat 8 (2 * n.toNat)) else none

/-- The speed-meter model of the two-bit wire value; 2 is Motorphase too (R105, R187). -/
def decSpeedModel (w : Nat) : SpeedModel :=
  match w with
  | 0 => .external
  | 1 => .internal
  | _ => .motorphase

/-- The two-bit wire value of a model to encode: Motorphase is 3, an invalid label is index 0, a number cannot be
encoded (R105, R223). -/
def speedModelToWire : EnumField SpeedModel → Option Nat
  | .label .external => some 0
  | .label .internal => some 1
  | .label .motorphase => some 3
  | .num _ => none
  | .invalidLabel => some 0

/-- The speed-meter byte `w * 64 + s`; `none` is `ENC_ERR` (R105, R224). -/
def encSpeedByte (m : EnumField SpeedModel) (signals : Byte) : Option Byte :=
  if 63 < signals.toNat then none
  else (speedModelToWire m).map fun w => BitVec.ofNat 8 (w * 64 + signals.toNat)

/-- `dec_volt` (R106). -/
def decVolt (b : Byte) : Volt :=
  match b.toNat with
  | 0 => .v24
  | 1 => .v36
  | 2 => .v48
  | 3 => .v60
  | 4 => .v24to48
  | _ => .v24to60

/-- `dec_text` of two bytes at offset `o` (R107). -/
def decText2 (f : List Byte) (o : Nat) : Text2 := ⟨byteAt f o, byteAt f (o + 1)⟩

/-- `dec_text` of four bytes at offset `o` (R107). -/
def decText4 (f : List Byte) (o : Nat) : Text4 :=
  ⟨byteAt f o, byteAt f (o + 1), byteAt f (o + 2), byteAt f (o + 3)⟩

/-- Ten consecutive bytes from offset `o`, assist levels 0 to 9 (R97). -/
def decLevels (f : List Byte) (o : Nat) : Levels :=
  ⟨byteAt f o, byteAt f (o + 1), byteAt f (o + 2), byteAt f (o + 3), byteAt f (o + 4), byteAt f (o + 5),
    byteAt f (o + 6), byteAt f (o + 7), byteAt f (o + 8), byteAt f (o + 9)⟩

/-- The ten levels in order (R97). -/
def encLevels (l : Levels) : List Byte := [l.l0, l.l1, l.l2, l.l3, l.l4, l.l5, l.l6, l.l7, l.l8, l.l9]

/-! ### Labels and renderings -/

/-- The profile key of a kind (10_state.md R21). -/
def kindKey : Kind → String
  | .general => "info"
  | .basic => "basic"
  | .pedalAssist => "pedal"
  | .throttle => "throttle"

/-- The bytes of a `Text_2` in order. -/
def text2Bytes (t : Text2) : List Byte := [t.c0, t.c1]

/-- The bytes of a `Text_4` in order. -/
def text4Bytes (t : Text4) : List Byte := [t.c0, t.c1, t.c2, t.c3]

/-- `render_text`, as the ASCII codes of its characters (R29; log entry 15). -/
def renderText (t : List Byte) : List Byte := t

/-- `render_dotted`: the characters joined by a full stop, as ASCII codes (R29; log entry 15). -/
def renderDotted (t : List Byte) : List Byte := t.intersperse 0x2E#8

/-- `render_volt` (R28, R29). -/
def renderVolt : Volt → String
  | .v24 => "24V"
  | .v36 => "36V"
  | .v48 => "48V"
  | .v60 => "60V"
  | .v24to48 => "24V-48V"
  | .v24to60 => "24V-60V"

/-- `render_wheel` (R29). -/
def renderWheel : Wheel → String
  | .w700C => "700C"
  | .inches n => toString n.toNat

/-- The labels of `SpeedModel` (R28). -/
def speedModelLabel : SpeedModel → String
  | .external => "External"
  | .internal => "Internal"
  | .motorphase => "Motorphase"

/-- The labels of `PedalType` (R28). -/
def pedalTypeLabel : PedalType → String
  | .noPedal => "None"
  | .dhSensor12 => "DH-Sensor-12"
  | .bbSensor32 => "BB-Sensor-32"
  | .doubleSignal24 => "DoubleSignal-24"

/-- The labels of `ThrottleMode` (R28). -/
def throttleModeLabel : ThrottleMode → String
  | .speed => "Speed"
  | .current => "Current"

end Sys2Proof.Machine
end

