-- ==== Sys2Proof/Machine/Codec.lean ====
section
/-! DEFINITION. BCD, the block codec: the four decoders (42_codec_decode.md) and the three encoders
(43_codec_encode.md), and the meanings of DEC.k and ENC.k. -/

namespace Sys2Proof.Machine

/-! ### Decoders -/

/-- `DEC.GENERAL(F)`; `none` is `DEC_ERR` (R181, R182). -/
def decodeGeneral (f : List Byte) : Option GeneralRecord :=
  if f.length = 19 then
    some { manufacturer := decText4 f 2, model := decText4 f 6, hwVer := decText2 f 10, fwVer := decText4 f 12,
           voltage := decVolt (byteAt f 16), maxCurrent := byteAt f 17 }
  else none

/-- `DEC.BASIC(F)` (R181, R186). -/
def decodeBasic (f : List Byte) : Option BasicRecord :=
  if f.length = 27 then
    some { lowBatteryProtect := byteAt f 2, currentLimit := byteAt f 3, assistCurrent := decLevels f 4,
           assistSpeed := decLevels f 14, wheelSize := decWheel (byteAt f 24),
           speedmeterModel := .label (decSpeedModel (bits 7 6 (byteAt f 25))),
           speedmeterSignals := BitVec.ofNat 8 (bits 5 0 (byteAt f 25)) }
  else none

/-- `DEC.PEDAL(F)` (R181, R192). -/
def decodePedal (f : List Byte) : Option PedalRecord :=
  if f.length = 14 then
    some { pedalType := decEnum pedalTypeOfWire (byteAt f 2), designatedAssist := decDisp (byteAt f 3),
           speedLimit := decDisp (byteAt f 4), startCurrent := byteAt f 5, slowStartMode := byteAt f 6,
           startupDegree := byteAt f 7, workMode := decUnd (byteAt f 8), timeOfStop := byteAt f 9,
           currentDecay := byteAt f 10, stopDecay := byteAt f 11, keepCurrent := byteAt f 12 }
  else none

/-- `DEC.THROTTLE(F)` (R181, R196). -/
def decodeThrottle (f : List Byte) : Option ThrottleRecord :=
  if f.length = 9 then
    some { startVoltage := byteAt f 2, endVoltage := byteAt f 3, mode := decEnum throttleModeOfWire (byteAt f 4),
           designatedAssist := decDisp (byteAt f 5), speedLimit := decDisp (byteAt f 6),
           startCurrent := byteAt f 7 }
  else none

/-- `DEC.k(F)`, as a record of the kind (R296). -/
def decodeBlock (k : Kind) (f : List Byte) : Option Record :=
  match k with
  | .general => (decodeGeneral f).map .general
  | .basic => (decodeBasic f).map .basic
  | .pedalAssist => (decodePedal f).map .pedal
  | .throttle => (decodeThrottle f).map .throttle

/-! ### Encoders -/

/-- `ENC.BASIC(R)`; `none` is `ENC_ERR` (R222, R224). -/
def encodeBasic (r : BasicRecord) : Option (List Byte) :=
  match encWheel r.wheelSize, encSpeedByte r.speedmeterModel r.speedmeterSignals with
  | some w, some m =>
    some ([r.lowBatteryProtect, r.currentLimit] ++ encLevels r.assistCurrent ++ encLevels r.assistSpeed ++ [w, m])
  | _, _ => none

/-- `ENC.PEDAL(R)`, never `ENC_ERR` (R232). -/
def encodePedal (r : PedalRecord) : List Byte :=
  [encEnum pedalTypeToWire r.pedalType, encDisp r.designatedAssist, encDisp r.speedLimit, r.startCurrent,
    r.slowStartMode, r.startupDegree, encUnd r.workMode, r.timeOfStop, r.currentDecay, r.stopDecay, r.keepCurrent]

/-- `ENC.THROTTLE(R)`, never `ENC_ERR` (R240). -/
def encodeThrottle (r : ThrottleRecord) : List Byte :=
  [r.startVoltage, r.endVoltage, encEnum throttleModeToWire r.mode, encDisp r.designatedAssist,
    encDisp r.speedLimit, r.startCurrent]

/-- What WRITE finds in the slot of a kind (45_session.md R289, R290). -/
inductive SlotPayload where
  | isGeneral
  | absent
  | encErr
  | payload (p : List Byte)
deriving DecidableEq, Repr

/-- `ENC.k(P[k])`, with the tests of WRITE in their order: General, absent, unencodable (R289). -/
def slotPayload (p : Profile) (k : Kind) : SlotPayload :=
  match k with
  | .general => .isGeneral
  | .basic =>
    match p.basic with
    | none => .absent
    | some r =>
      match encodeBasic r with
      | none => .encErr
      | some b => .payload b
  | .pedalAssist =>
    match p.pedal with
    | none => .absent
    | some r => .payload (encodePedal r)
  | .throttle =>
    match p.throttle with
    | none => .absent
    | some r => .payload (encodeThrottle r)

/-! ### Meanings -/

/-- DEC.GENERAL (R182). -/
def execDecGeneral (f : List Byte) (s : State) : Host.Outcome State Fault Refusal :=
  .next (setRet (((decodeGeneral f).map Result.general).getD .decErr) s)

/-- DEC.BASIC (R186). -/
def execDecBasic (f : List Byte) (s : State) : Host.Outcome State Fault Refusal :=
  .next (setRet (((decodeBasic f).map Result.basic).getD .decErr) s)

/-- DEC.PEDAL (R192). -/
def execDecPedal (f : List Byte) (s : State) : Host.Outcome State Fault Refusal :=
  .next (setRet (((decodePedal f).map Result.pedal).getD .decErr) s)

/-- DEC.THROTTLE (R196). -/
def execDecThrottle (f : List Byte) (s : State) : Host.Outcome State Fault Refusal :=
  .next (setRet (((decodeThrottle f).map Result.throttle).getD .decErr) s)

/-- ENC.BASIC (R222). -/
def execEncBasic (r : BasicRecord) (s : State) : Host.Outcome State Fault Refusal :=
  .next (setRet (((encodeBasic r).map Result.bytes).getD .encErr) s)

/-- ENC.PEDAL (R232). -/
def execEncPedal (r : PedalRecord) (s : State) : Host.Outcome State Fault Refusal :=
  .next (setRet (.bytes (encodePedal r)) s)

/-- ENC.THROTTLE (R240). -/
def execEncThrottle (r : ThrottleRecord) (s : State) : Host.Outcome State Fault Refusal :=
  .next (setRet (.bytes (encodeThrottle r)) s)

end Sys2Proof.Machine
end

