-- ==== Sys2Proof/Machine/Csu.lean ====
section
/-! DEFINITION. CSU, the checksum unit (40_checksum.md), and the meanings of its four operations. -/

namespace Sys2Proof.Machine

/-- `sum(B)`, the sum of the bytes as an unbounded natural (00_scope.md R8). -/
def byteSum (b : List Byte) : Nat := (b.map BitVec.toNat).sum

/-- `CSU.SUM(B) = sum(B[1..]) mod 256` (R141). -/
def csuSum (b : List Byte) : Byte := BitVec.ofNat 8 (byteSum (b.drop 1) % 256)

/-- `CSU.APPEND(B) = B ++ [CSU.SUM(B)]` (R143). -/
def csuAppend (b : List Byte) : List Byte := b ++ [csuSum b]

/-- `CSU.VERIFY(G)`: the last byte is the checksum of the bytes before it; false for no bytes (R145). -/
def csuVerify (g : List Byte) : Bool :=
  if g.length = 0 then false else decide (byteAt g (g.length - 1) = csuSum (g.take (g.length - 1)))

/-- `CSU.RXOK(F)`: the last byte is the sum of the bytes from `P_RX_SUM_FROM` to the last but one, modulo 256
(R147). For fewer than two bytes R147 states no result: a free value (log entry 7). -/
def csuRxok (from_ : SumFrom) (f : List Byte) : Bool :=
  if f.length < 2 then Config.rxokShort from_ f
  else decide (byteAt f (f.length - 1)
    = BitVec.ofNat 8 (byteSum ((f.take (f.length - 1)).drop from_.offset) % 256))

/-- CSU.SUM (R141): a pure operation; its value is returned and nothing else changes (R120). -/
def execCsuSum (b : List Byte) (s : State) : Host.Outcome State Fault Refusal :=
  .next (setRet (.byte (csuSum b)) s)

/-- CSU.APPEND (R143). -/
def execCsuAppend (b : List Byte) (s : State) : Host.Outcome State Fault Refusal :=
  .next (setRet (.bytes (csuAppend b)) s)

/-- CSU.VERIFY (R145). -/
def execCsuVerify (g : List Byte) (s : State) : Host.Outcome State Fault Refusal :=
  .next (setRet (.flag (csuVerify g)) s)

/-- CSU.RXOK (R147). -/
def execCsuRxok (f : List Byte) (s : State) : Host.Outcome State Fault Refusal :=
  .next (setRet (.flag (csuRxok s.params.rxSumFrom f)) s)

end Sys2Proof.Machine
end

