-- ==== Sys2Proof/Machine/Flags.lean ====
section
/-! DEFINITION. The session state as a view (10_state.md R32), the request guard (45_session.md R286), the chain
order (R282, R283) and when the block is quiescent (70_reset_and_hazards.md R392). -/

namespace Sys2Proof.Machine

/-- The three session states (45_session.md R280). -/
inductive Sess where
  | idle
  | awaitingRead (k : Kind)
  | awaitingWrite (k : Kind)
deriving DecidableEq, Repr

/-- `sess`, read off `need` and `ctx` (10_state.md R32). -/
def sess (s : State) : Sess :=
  if s.need = 0 then .idle
  else
    match s.ctx.dir with
    | .read => .awaitingRead s.ctx.kind
    | .write => .awaitingWrite s.ctx.kind

/-- `GUARD`: the cause a request is refused for, if it is; the tests in the order of R286. -/
def guardCause (s : State) : Option Cause :=
  if s.conn = false then some .wNotConnected
  else if 0 < s.need then some (.wBusy s.ctx s.need)
  else none

/-- `next(k)`; Throttle, the last block in chain order, has none (R283). -/
def nextKind : Kind → Option Kind
  | .general => some .basic
  | .basic => some .pedalAssist
  | .pedalAssist => some .throttle
  | .throttle => none

/-- The length of the frame a context awaits: `LEN[k]` for a read, 2 for a write (R287, R289; 10_state.md R36 (c)). -/
def expectedLen (c : Ctx) : Nat :=
  match c.dir with
  | .read => Config.len c.kind
  | .write => Config.ackLen

/-- No exchange is outstanding (70_reset_and_hazards.md R392). -/
def quiescent (s : State) : Bool := decide (s.need = 0)

/-- The stale-flag state: quiescent with the chain flag set (70_reset_and_hazards.md R382, R392). -/
def staleChain (s : State) : Bool := quiescent s && s.chain

end Sys2Proof.Machine
end

