-- ==== Sys2Proof/Machine/Fra.lean ====
section
/-! DEFINITION. The internal operations of FRA, the frame reassembler (41_frame_assembler.md): FRA.ARM and
FRA.CANCEL. FEED is in Seq.lean, after the completion steps it runs. -/

namespace Sys2Proof.Machine

/-- `FRA.ARM(E, c)` (R161, R162): an illegal length is refused; an armed assembler warns and drops its partial frame;
then the new expectation is installed. -/
def fraArm (e : Nat) (c : Ctx) (s : State) : State :=
  if e < 1 ∨ Config.bufDepth < e then raise (.wArmLen e) s
  else if 0 < s.need then installExpectation e c (raise (.wRearm s.ctx s.buf.length s.need) s)
  else installExpectation e c s

/-- `FRA.CANCEL` (R167): no completion, no event, no record. -/
def fraCancel (s : State) : State := disarm s

/-- FRA.ARM as an instruction: internal, invoked by READ and WRITE only (10_state.md R45). -/
def execFraArm (e : Nat) (c : Ctx) (s : State) : Host.Outcome State Fault Refusal :=
  .next (fraArm e c s)

/-- FRA.CANCEL as an instruction: internal, invoked by CONNECT, CLOSE and TFAIL only. -/
def execFraCancel (s : State) : Host.Outcome State Fault Refusal :=
  .next (fraCancel s)

end Sys2Proof.Machine
end

