-- ==== Sys2Proof/Machine/Rct.lean ====
section
/-! DEFINITION. RCT, the result-code translator (44_result_code.md), and the meanings of RCT.k. -/

namespace Sys2Proof.Machine

/-- `RCT.BASIC(r)`, the full table of R262; 25..255 are unknown (R263). -/
def rctBasic (r : Byte) : Verdict :=
  match r.toNat with
  | 0 => .fieldError .basic .lowBatteryProtect
  | 1 => .fieldError .basic .currentLimit
  | 2 => .fieldError .basic (.assistCurrent 0)
  | 3 => .fieldError .basic (.assistSpeed 0)
  | 4 => .fieldError .basic (.assistCurrent 1)
  | 5 => .fieldError .basic (.assistSpeed 1)
  | 6 => .fieldError .basic (.assistCurrent 2)
  | 7 => .fieldError .basic (.assistSpeed 2)
  | 8 => .fieldError .basic (.assistCurrent 3)
  | 9 => .fieldError .basic (.assistSpeed 3)
  | 10 => .fieldError .basic (.assistCurrent 4)
  | 11 => .fieldError .basic (.assistSpeed 4)
  | 12 => .fieldError .basic (.assistCurrent 5)
  | 13 => .fieldError .basic (.assistSpeed 5)
  | 14 => .fieldError .basic (.assistCurrent 6)
  | 15 => .fieldError .basic (.assistSpeed 6)
  | 16 => .fieldError .basic (.assistCurrent 7)
  | 17 => .fieldError .basic (.assistSpeed 7)
  | 18 => .fieldError .basic (.assistCurrent 8)
  | 19 => .fieldError .basic (.assistSpeed 8)
  | 20 => .fieldError .basic (.assistCurrent 9)
  | 21 => .fieldError .basic (.assistSpeed 9)
  | 22 => .fieldError .basic .wheelSize
  | 23 => .fieldError .basic .speedmeterSignals
  | 24 => .success
  | _ => .unknownCode r

/-- `RCT.PEDAL(r)` (R264); code 3 names `start_current` (90_conflicts.md C6); 12..255 are unknown (R265). -/
def rctPedal (r : Byte) : Verdict :=
  match r.toNat with
  | 0 => .fieldError .pedalAssist .pedalType
  | 1 => .fieldError .pedalAssist .designatedAssist
  | 2 => .fieldError .pedalAssist .speedLimit
  | 3 => .fieldError .pedalAssist .startCurrent
  | 4 => .fieldError .pedalAssist .slowStartMode
  | 5 => .fieldError .pedalAssist .startupDegree
  | 6 => .fieldError .pedalAssist .workMode
  | 7 => .fieldError .pedalAssist .timeOfStop
  | 8 => .fieldError .pedalAssist .currentDecay
  | 9 => .fieldError .pedalAssist .stopDecay
  | 10 => .fieldError .pedalAssist .keepCurrent
  | 11 => .success
  | _ => .unknownCode r

/-- `RCT.THROTTLE(r)` (R266); 7..255 are unknown (R267). -/
def rctThrottle (r : Byte) : Verdict :=
  match r.toNat with
  | 0 => .fieldError .throttle .startVoltage
  | 1 => .fieldError .throttle .endVoltage
  | 2 => .fieldError .throttle .mode
  | 3 => .fieldError .throttle .designatedAssist
  | 4 => .fieldError .throttle .speedLimit
  | 5 => .fieldError .throttle .startCurrent
  | 6 => .success
  | _ => .unknownCode r

/-- `RCT.k(r)`; there is no RCT.GENERAL (R261). -/
def rctVerdict (k : Kind) (r : Byte) : Option Verdict :=
  match k with
  | .general => none
  | .basic => some (rctBasic r)
  | .pedalAssist => some (rctPedal r)
  | .throttle => some (rctThrottle r)

/-- RCT.BASIC (R262). -/
def execRctBasic (r : Byte) (s : State) : Host.Outcome State Fault Refusal :=
  .next (setRet (.verdict (rctBasic r)) s)

/-- RCT.PEDAL (R264). -/
def execRctPedal (r : Byte) (s : State) : Host.Outcome State Fault Refusal :=
  .next (setRet (.verdict (rctPedal r)) s)

/-- RCT.THROTTLE (R266). -/
def execRctThrottle (r : Byte) (s : State) : Host.Outcome State Fault Refusal :=
  .next (setRet (.verdict (rctThrottle r)) s)

end Sys2Proof.Machine
end

