-- ==== Sys2Proof/Machine/Seq.lean ====
section
/-! DEFINITION. SEQ, the protocol session sequencer (45_session.md): requests, completion steps, FEED
(41_frame_assembler.md R163), the host operations, and their meanings. -/

namespace Sys2Proof.Machine

/-! ### Requests -/

/-- `RDREQ(k)` (R284): the General request carries its tail and a checksum, the others are two bytes (R91, R92). -/
def readRequest (k : Kind) : List Byte :=
  match k with
  | .general => csuAppend ([Config.cmdRead, Config.blockId .general] ++ Config.genTail)
  | _ => [Config.cmdRead, Config.blockId k]

/-- `WRREQ(k, p)` (R284, R93). -/
def writeRequest (k : Kind) (p : List Byte) : List Byte :=
  csuAppend ([Config.cmdWrite, Config.blockId k, BitVec.ofNat 8 p.length] ++ p)

/-- `READ k` (R286, R287). -/
def requestRead (k : Kind) (s : State) : State :=
  match guardCause s with
  | some c => raise c s
  | none => fraArm (Config.len k) { dir := .read, kind := k } (send (readRequest k) s)

/-- `WRITE k` (R286, R289, R290). -/
def requestWrite (k : Kind) (s : State) : State :=
  match guardCause s with
  | some c => raise c s
  | none =>
    match slotPayload s.prf k with
    | .isGeneral => raise .wGeneralWrite s
    | .absent => raise (.wNoRecord k) s
    | .encErr => raise (.wEncRange k) s
    | .payload p => fraArm Config.ackLen { dir := .write, kind := k } (send (writeRequest k p) s)

/-! ### Completion -/

/-- The chain step after a completed exchange of kind `k`: clear the flag at the last block, else go on to the next
block if the flag is set (R296, R298, R299). -/
def chainStep (request : Kind → State → State) (k : Kind) (s : State) : State :=
  match nextKind k with
  | none => setChain false s
  | some k' => if s.chain then request k' s else s

/-- `COMPLETE.READ(F, k)` (R293 to R296). A frame that is not `LEN[k]` bytes long is outside the rule's domain. -/
def completeRead (f : List Byte) (k : Kind) (s : State) : Host.Outcome State Fault Refusal :=
  if f.length ≠ Config.len k then .fault .completionLength
  else if s.params.verifyRx = true ∧ csuRxok s.params.rxSumFrom f = false then .next (raise (.eRxChecksum k f) s)
  else if byteAt f 0 ≠ Config.blockId k then .next (raise (.wUnknownId (byteAt f 0) k) s)
  else
    match decodeBlock k f with
    | none => .fault .completionLength
    | some r => .next (chainStep requestRead k (emit (.blockRead k) (storeSlot r s)))

/-- `COMPLETE.WRITE(F, k)` (R293, R295, R298, R299). A frame that is not two bytes long, and a completion for General,
are outside the rule's domain (R261). -/
def completeWrite (f : List Byte) (k : Kind) (s : State) : Host.Outcome State Fault Refusal :=
  if f.length ≠ Config.ackLen then .fault .completionLength
  else if byteAt f 0 ≠ Config.blockId k then .next (raise (.wUnknownId (byteAt f 0) k) s)
  else
    match rctVerdict k (byteAt f 1) with
    | none => .fault .noTranslator
    | some .success => .next (chainStep requestWrite k (emit (.blockWritten k none) s))
    | some v =>
      let t := emit (.blockWritten k (some v)) (raise (.eWriteRejected k (byteAt f 1)) s)
      .next (if s.params.wfailAdvance then chainStep requestWrite k t else t)

/-- The completion step of a context (R163, R165). -/
def complete (c : Ctx) (f : List Byte) (s : State) : Host.Outcome State Fault Refusal :=
  match c.dir with
  | .read => completeRead f c.kind s
  | .write => completeWrite f c.kind s

/-- `FEED(b)` (R163 to R165): stray while not armed; otherwise accepted, and the last byte runs the completion step
with `need = 0` and `buf = []` in place. -/
def feedByte (b : Byte) (s : State) : Host.Outcome State Fault Refusal :=
  if s.need = 0 then .next (raise (.wStray b) s)
  else
    let t := acceptByte b s
    if t.need = 0 then complete t.ctx t.buf (clearBuf t) else .next t

/-- FEED of each byte in order (30_encoding.md R123, the `RX` line). -/
def feedBytes : List Byte → State → Host.Outcome State Fault Refusal
  | [], s => .next s
  | b :: rest, s =>
    match feedByte b s with
    | .next t => feedBytes rest t
    | .fault r => .fault r
    | .refused r => .refused r

/-! ### Host operations -/

/-- `CONNECT` (R285). -/
def connect (s : State) : State :=
  if s.conn then raise .wAlreadyConnected s
  else requestRead .general (emit (.transportState true) (setChain false (fraCancel (setConn true s))))

/-- `CLOSE` (R301). -/
def close (s : State) : State :=
  if s.conn then emit (.transportState false) (setConn false (setChain false (fraCancel s))) else s

/-! ### Meanings -/

/-- CONNECT (R285). -/
def execConnect (s : State) : Host.Outcome State Fault Refusal := .next (connect s)

/-- CLOSE (R301). -/
def execClose (s : State) : Host.Outcome State Fault Refusal := .next (close s)

/-- TFAIL: `raise E_TRANSPORT; CLOSE` (R303). -/
def execTfail (s : State) : Host.Outcome State Fault Refusal := .next (close (raise .eTransport s))

/-- READALL: `chain <- true; READ Basic` (R291). -/
def execReadall (s : State) : Host.Outcome State Fault Refusal := .next (requestRead .basic (setChain true s))

/-- WRITEALL: `chain <- true; WRITE Basic` (R292). -/
def execWriteall (s : State) : Host.Outcome State Fault Refusal := .next (requestWrite .basic (setChain true s))

/-- LOADPROFILE Q (R305). -/
def execLoadprofile (q : Profile) (s : State) : Host.Outcome State Fault Refusal := .next (setProfile q s)

/-- FEED (R163). -/
def execFeed (b : Byte) (s : State) : Host.Outcome State Fault Refusal := feedByte b s

/-- READ info (R287). -/
def execReadInfo (s : State) : Host.Outcome State Fault Refusal := .next (requestRead .general s)

/-- READ basic (R287). -/
def execReadBasic (s : State) : Host.Outcome State Fault Refusal := .next (requestRead .basic s)

/-- READ pedal (R287). -/
def execReadPedal (s : State) : Host.Outcome State Fault Refusal := .next (requestRead .pedalAssist s)

/-- READ throttle (R287). -/
def execReadThrottle (s : State) : Host.Outcome State Fault Refusal := .next (requestRead .throttle s)

/-- WRITE info: past the guard always refused with `W_GENERAL_WRITE` (R289, R347). -/
def execWriteInfo (s : State) : Host.Outcome State Fault Refusal := .next (requestWrite .general s)

/-- WRITE basic (R289). -/
def execWriteBasic (s : State) : Host.Outcome State Fault Refusal := .next (requestWrite .basic s)

/-- WRITE pedal (R289). -/
def execWritePedal (s : State) : Host.Outcome State Fault Refusal := .next (requestWrite .pedalAssist s)

/-- WRITE throttle (R289). -/
def execWriteThrottle (s : State) : Host.Outcome State Fault Refusal := .next (requestWrite .throttle s)

/-- COMPLETE.READ as an instruction: internal, run inside FEED (R296). -/
def execCompleteRead (f : List Byte) (k : Kind) (s : State) : Host.Outcome State Fault Refusal := completeRead f k s

/-- COMPLETE.WRITE as an instruction: internal, run inside FEED (R298, R299). -/
def execCompleteWrite (f : List Byte) (k : Kind) (s : State) : Host.Outcome State Fault Refusal :=
  completeWrite f k s

end Sys2Proof.Machine
end

