-- ==== Sys2Proof/Machine/Frames.lean ====
section
/-! DEFINITION. The wire frames as instructions (30_encoding.md R90 to R95): a transmit frame is the `send` of that
frame (log entry 10), a received frame one FEED per byte in order (R62, R123; log entry 11). -/

namespace Sys2Proof.Machine

/-- The bytes of a write request with its payload and checksum byte (R93). -/
def wqFrame (id length : Byte) (p : List Byte) (c : Byte) : List Byte := [Config.cmdWrite, id, length] ++ p ++ [c]

/-- RQ5.GENERAL, the constant `11 51 04 B0 05` (R91). -/
def execRq5General (s : State) : Host.Outcome State Fault Refusal :=
  .next (send [0x11#8, 0x51#8, 0x04#8, 0xB0#8, 0x05#8] s)

/-- RQ2.BASIC, the constant `11 52` (R92). -/
def execRq2Basic (s : State) : Host.Outcome State Fault Refusal := .next (send [0x11#8, 0x52#8] s)

/-- RQ2.PEDAL, the constant `11 53` (R92). -/
def execRq2Pedal (s : State) : Host.Outcome State Fault Refusal := .next (send [0x11#8, 0x53#8] s)

/-- RQ2.THROTTLE, the constant `11 54` (R92). -/
def execRq2Throttle (s : State) : Host.Outcome State Fault Refusal := .next (send [0x11#8, 0x54#8] s)

/-- WQ.BASIC (R93). -/
def execWqBasic (p : List Byte) (c : Byte) (s : State) : Host.Outcome State Fault Refusal :=
  .next (send (wqFrame 0x52#8 0x18#8 p c) s)

/-- WQ.PEDAL (R93). -/
def execWqPedal (p : List Byte) (c : Byte) (s : State) : Host.Outcome State Fault Refusal :=
  .next (send (wqFrame 0x53#8 0x0B#8 p c) s)

/-- WQ.THROTTLE (R93). -/
def execWqThrottle (p : List Byte) (c : Byte) (s : State) : Host.Outcome State Fault Refusal :=
  .next (send (wqFrame 0x54#8 0x06#8 p c) s)

/-- RR.GENERAL (R94). -/
def execRrGeneral (rest : List Byte) (s : State) : Host.Outcome State Fault Refusal := feedBytes (0x51#8 :: rest) s

/-- RR.BASIC (R94). -/
def execRrBasic (rest : List Byte) (s : State) : Host.Outcome State Fault Refusal := feedBytes (0x52#8 :: rest) s

/-- RR.PEDAL (R94). -/
def execRrPedal (rest : List Byte) (s : State) : Host.Outcome State Fault Refusal := feedBytes (0x53#8 :: rest) s

/-- RR.THROTTLE (R94). -/
def execRrThrottle (rest : List Byte) (s : State) : Host.Outcome State Fault Refusal := feedBytes (0x54#8 :: rest) s

/-- WA.BASIC (R95). -/
def execWaBasic (r : Byte) (s : State) : Host.Outcome State Fault Refusal := feedBytes [0x52#8, r] s

/-- WA.PEDAL (R95). -/
def execWaPedal (r : Byte) (s : State) : Host.Outcome State Fault Refusal := feedBytes [0x53#8, r] s

/-- WA.THROTTLE (R95). -/
def execWaThrottle (r : Byte) (s : State) : Host.Outcome State Fault Refusal := feedBytes [0x54#8, r] s

end Sys2Proof.Machine
end

