-- ==== Sys2Proof/Machine/Dispatch.lean ====
section
/-! DEFINITION. The dispatch: one arm per constructor of Instr, in the order of spec/opcode_table.json. -/

namespace Sys2Proof.Machine

/-- What an instruction does (each meaning's docstring names its rule). -/
def exec (i : Instr) (s : State) : Host.Outcome State Fault Refusal :=
  match i with
  | .connect => Sys2Proof.Machine.execConnect s
  | .close => Sys2Proof.Machine.execClose s
  | .tfail => Sys2Proof.Machine.execTfail s
  | .readall => Sys2Proof.Machine.execReadall s
  | .writeall => Sys2Proof.Machine.execWriteall s
  | .loadprofile q => Sys2Proof.Machine.execLoadprofile q s
  | .feed b => Sys2Proof.Machine.execFeed b s
  | .readInfo => Sys2Proof.Machine.execReadInfo s
  | .readBasic => Sys2Proof.Machine.execReadBasic s
  | .readPedal => Sys2Proof.Machine.execReadPedal s
  | .readThrottle => Sys2Proof.Machine.execReadThrottle s
  | .writeInfo => Sys2Proof.Machine.execWriteInfo s
  | .writeBasic => Sys2Proof.Machine.execWriteBasic s
  | .writePedal => Sys2Proof.Machine.execWritePedal s
  | .writeThrottle => Sys2Proof.Machine.execWriteThrottle s
  | .csuSum b => Sys2Proof.Machine.execCsuSum b s
  | .csuAppend b => Sys2Proof.Machine.execCsuAppend b s
  | .csuVerify g => Sys2Proof.Machine.execCsuVerify g s
  | .csuRxok f => Sys2Proof.Machine.execCsuRxok f s
  | .decGeneral f => Sys2Proof.Machine.execDecGeneral f s
  | .decBasic f => Sys2Proof.Machine.execDecBasic f s
  | .decPedal f => Sys2Proof.Machine.execDecPedal f s
  | .decThrottle f => Sys2Proof.Machine.execDecThrottle f s
  | .encBasic r => Sys2Proof.Machine.execEncBasic r s
  | .encPedal r => Sys2Proof.Machine.execEncPedal r s
  | .encThrottle r => Sys2Proof.Machine.execEncThrottle r s
  | .rctBasic r => Sys2Proof.Machine.execRctBasic r s
  | .rctPedal r => Sys2Proof.Machine.execRctPedal r s
  | .rctThrottle r => Sys2Proof.Machine.execRctThrottle r s
  | .fraArm e c => Sys2Proof.Machine.execFraArm e c s
  | .fraCancel => Sys2Proof.Machine.execFraCancel s
  | .completeRead f k => Sys2Proof.Machine.execCompleteRead f k s
  | .completeWrite f k => Sys2Proof.Machine.execCompleteWrite f k s
  | .rq5General => Sys2Proof.Machine.execRq5General s
  | .rq2Basic => Sys2Proof.Machine.execRq2Basic s
  | .rq2Pedal => Sys2Proof.Machine.execRq2Pedal s
  | .rq2Throttle => Sys2Proof.Machine.execRq2Throttle s
  | .wqBasic p c => Sys2Proof.Machine.execWqBasic p c s
  | .wqPedal p c => Sys2Proof.Machine.execWqPedal p c s
  | .wqThrottle p c => Sys2Proof.Machine.execWqThrottle p c s
  | .rrGeneral rest => Sys2Proof.Machine.execRrGeneral rest s
  | .rrBasic rest => Sys2Proof.Machine.execRrBasic rest s
  | .rrPedal rest => Sys2Proof.Machine.execRrPedal rest s
  | .rrThrottle rest => Sys2Proof.Machine.execRrThrottle rest s
  | .waBasic r => Sys2Proof.Machine.execWaBasic r s
  | .waPedal r => Sys2Proof.Machine.execWaPedal r s
  | .waThrottle r => Sys2Proof.Machine.execWaThrottle r s

end Sys2Proof.Machine
end

