-- ==== Sys2Proof/Machine/Step.lean ====
section
/-! DEFINITION. One step of the block: the oldest pending input event is taken, decoded and handled whole
(00_scope.md R11); and how a word of the opcode table is presented. -/

namespace Sys2Proof.Machine

/-- One step. No pending event: nothing happens (the block never stops of itself, 70_reset_and_hazards.md R392; log
entry 4). A reserved command word "selects no operation, changes no state and produces no output" (30_encoding.md
R121). An event that is no input event of the spec is refused by name (log entry 3). -/
def step (s : State) : Host.Outcome State Fault Refusal :=
  match s.input with
  | [] => .next s
  | e :: rest =>
    match decodeEvent e with
    | .ok i => exec i (setInput rest s)
    | .error (.reservedWord _) => .next (setInput rest s)
    | .error err => .refused (.malformedEvent err)

/-- The state in which the next step takes the instruction of a table row: its event is put before the pending ones
(log entry 12). -/
def State.withFetchWord (s : State) (nbits w : Nat) : State :=
  setInput (tableEvents nbits w ++ s.input) s

end Sys2Proof.Machine
end

