-- ==== Sys2Proof/Safety.lean ====
section
/-! DEFINITION. The invariants of 10_state.md R36, which runs they are claimed of, and the parts of the instruction
set the environment may invoke (60_exceptions.md R360). -/

namespace Sys2Proof.Machine

/-- The invariants (a) to (e) of R36. -/
structure State.Inv (s : State) : Prop where
  /-- (a) -/
  needBound : s.need ≤ 27
  /-- (a) -/
  bufBound : s.buf.length ≤ 27
  /-- (b) -/
  idleEmpty : s.need = 0 → s.buf = []
  /-- (c) -/
  armedLength : 0 < s.need → s.buf.length + s.need = expectedLen s.ctx
  /-- (d) -/
  armedConnected : 0 < s.need → s.conn = true
  /-- (e) -/
  armedWriteKind : 0 < s.need → s.ctx.dir = .write → s.ctx.kind ≠ .general

/-- The reachable states: a run starts from reset with any parameters (00_scope.md R6) and any list of input events
still to come (R11, R392), and goes on step by step. -/
inductive Reachable : State → Prop where
  | start (p : Params) (events : List Event) :
      Reachable { State.reset with params := p, input := events }
  | next {s t : State} : Reachable s → step s = .next t → Reachable t

/-- The instructions that are input events: the public and the pure operations (30_encoding.md R120). -/
def isInputEvent : Instr → Bool
  | .connect => true
  | .close => true
  | .tfail => true
  | .readall => true
  | .writeall => true
  | .loadprofile _ => true
  | .feed _ => true
  | .readInfo => true
  | .readBasic => true
  | .readPedal => true
  | .readThrottle => true
  | .writeInfo => true
  | .writeBasic => true
  | .writePedal => true
  | .writeThrottle => true
  | .csuSum _ => true
  | .csuAppend _ => true
  | .csuVerify _ => true
  | .csuRxok _ => true
  | .decGeneral _ => true
  | .decBasic _ => true
  | .decPedal _ => true
  | .decThrottle _ => true
  | .encBasic _ => true
  | .encPedal _ => true
  | .encThrottle _ => true
  | .rctBasic _ => true
  | .rctPedal _ => true
  | .rctThrottle _ => true
  | .fraArm _ _ => false
  | .fraCancel => false
  | .completeRead _ _ => false
  | .completeWrite _ _ => false
  | .rq5General => false
  | .rq2Basic => false
  | .rq2Pedal => false
  | .rq2Throttle => false
  | .wqBasic _ _ => false
  | .wqPedal _ _ => false
  | .wqThrottle _ _ => false
  | .rrGeneral _ => false
  | .rrBasic _ => false
  | .rrPedal _ => false
  | .rrThrottle _ => false
  | .waBasic _ => false
  | .waPedal _ => false
  | .waThrottle _ => false

/-- The internal operations (30_encoding.md R120). -/
def isInternal : Instr → Bool
  | .connect => false
  | .close => false
  | .tfail => false
  | .readall => false
  | .writeall => false
  | .loadprofile _ => false
  | .feed _ => false
  | .readInfo => false
  | .readBasic => false
  | .readPedal => false
  | .readThrottle => false
  | .writeInfo => false
  | .writeBasic => false
  | .writePedal => false
  | .writeThrottle => false
  | .csuSum _ => false
  | .csuAppend _ => false
  | .csuVerify _ => false
  | .csuRxok _ => false
  | .decGeneral _ => false
  | .decBasic _ => false
  | .decPedal _ => false
  | .decThrottle _ => false
  | .encBasic _ => false
  | .encPedal _ => false
  | .encThrottle _ => false
  | .rctBasic _ => false
  | .rctPedal _ => false
  | .rctThrottle _ => false
  | .fraArm _ _ => true
  | .fraCancel => true
  | .completeRead _ _ => true
  | .completeWrite _ _ => true
  | .rq5General => false
  | .rq2Basic => false
  | .rq2Pedal => false
  | .rq2Throttle => false
  | .wqBasic _ _ => false
  | .wqPedal _ _ => false
  | .wqThrottle _ _ => false
  | .rrGeneral _ => false
  | .rrBasic _ => false
  | .rrPedal _ => false
  | .rrThrottle _ => false
  | .waBasic _ => false
  | .waPedal _ => false
  | .waThrottle _ => false

/-! ### Canonical records (42_codec_decode.md R200) -/

/-- `Num(255)` becomes the sentinel tag (R200). -/
def canonDisp : Disp8 → Disp8
  | .display => .display
  | .num n => if n = 0xFF#8 then .display else .num n

/-- `Num(255)` becomes the sentinel tag (R200). -/
def canonUnd : Und8 → Und8
  | .undetermined => .undetermined
  | .num n => if n = 0xFF#8 then .undetermined else .num n

/-- `Num(n)` with `n` inside the enumeration becomes its label, `InvalidLabel` becomes `Label(0)` (R200). -/
def canonPedalType : EnumField PedalType → EnumField PedalType
  | .label l => .label l
  | .num n =>
    if n = 0#8 then .label .noPedal else if n = 1#8 then .label .dhSensor12
    else if n = 2#8 then .label .bbSensor32 else if n = 3#8 then .label .doubleSignal24 else .num n
  | .invalidLabel => .label .noPedal

/-- The same for the Throttle mode (R200). -/
def canonThrottleMode : EnumField ThrottleMode → EnumField ThrottleMode
  | .label l => .label l
  | .num n => if n = 0#8 then .label .speed else if n = 1#8 then .label .current else .num n
  | .invalidLabel => .label .speed

/-- The same for the speed-meter model; a number there is never encoded (R200, R224). -/
def canonSpeedModel : EnumField SpeedModel → EnumField SpeedModel
  | .label l => .label l
  | .num n => .num n
  | .invalidLabel => .label .external

/-- The canonical Basic record with the same bytes (R200). -/
def canonBasic (r : BasicRecord) : BasicRecord :=
  { r with speedmeterModel := canonSpeedModel r.speedmeterModel }

/-- The canonical PedalAssist record with the same bytes (R200). -/
def canonPedal (r : PedalRecord) : PedalRecord :=
  { r with pedalType := canonPedalType r.pedalType, designatedAssist := canonDisp r.designatedAssist,
           speedLimit := canonDisp r.speedLimit, workMode := canonUnd r.workMode }

/-- The canonical Throttle record with the same bytes (R200). -/
def canonThrottle (r : ThrottleRecord) : ThrottleRecord :=
  { r with mode := canonThrottleMode r.mode, designatedAssist := canonDisp r.designatedAssist,
           speedLimit := canonDisp r.speedLimit }

/-- What a byte of a Basic frame becomes when it is decoded and encoded back, for the two lossy bytes of
42_codec_decode.md R201: the wheel byte (none is `ENC_ERR`). -/
def reencodedWheel (b : Byte) : Option Byte :=
  if b = 0xFF#8 then none
  else if b.toNat % 2 = 1 ∧ b ≠ 0x37#8 then some (b + 1#8) else some b

/-- The speed-meter byte: wire value 2 comes back as 3 (R201 (b)). -/
def reencodedSpeed (b : Byte) : Byte :=
  if 0x80 ≤ b.toNat ∧ b.toNat < 0xC0 then b + 0x40#8 else b

end Sys2Proof.Machine
end

