-- ==== Sys2Proof/Certificates/Slice0/Obligations.lean ====
section
/-! DEFINITION. The statements for the provers. `exec i s = .next t` with `t` written out is a result, a completion and
a frame at once: every field that `t` does not name is unchanged. -/

open Sys2Proof Sys2Proof.Machine

/-! ### Reset, step, encoding -/

/-- 10_state.md R44: what reset leaves (not the value of `ctx`, which R44 leaves unspecified); any input event may come
first; every request before CONNECT is refused. -/
def Obligations.ResetLeavesTheStatedValues : Prop :=
  State.reset.prf = { info := none, basic := none, pedal := none, throttle := none } ∧
  State.reset.need = 0 ∧ State.reset.buf = [] ∧ State.reset.chain = false ∧ State.reset.conn = false ∧
  txHistory State.reset = [] ∧ evHistory State.reset = [] ∧ logHistory State.reset = [] ∧
  sess State.reset = .idle ∧
  (∀ i : Instr, isInputEvent i = true → ∃ t, exec i State.reset = .next t) ∧
  (∀ s : State, s.conn = false →
    (∀ i ∈ [Instr.readInfo, .readBasic, .readPedal, .readThrottle, .writeInfo, .writeBasic, .writePedal, .writeThrottle],
      exec i s = .next { s with out := s.out ++ [.log .wNotConnected] }) ∧
    (∀ i ∈ [Instr.readall, .writeall],
      exec i s = .next { s with chain := true, out := s.out ++ [.log .wNotConnected] }))

/-- 00_scope.md R11, 20_memory.md R71: a step handles the oldest pending event whole: it is `exec` of the decoded
instruction on the state that no longer holds the event. With no event pending nothing happens (the model's choice,
log entry 4). -/
def Obligations.StepRunsTheDecodedEvent : Prop :=
  (∀ (s : State) (e : Event) (rest : List Event) (i : Instr),
    s.input = e :: rest → decodeEvent e = .ok i → step s = exec i { s with input := rest }) ∧
  (∀ s : State, s.input = [] → step s = .next s)

/-- 30_encoding.md R121: the command words, every other one reserved, none for the internal operations. R121 gives
operand bytes to FEED only: that the operand of CSU.k, DEC.k and RCT.k is the bytes after the word, and that of
LOADPROFILE and ENC.k a typed value beside it, is the model's choice, log entry 2. -/
def Obligations.CommandWordsOfTheTable : Prop :=
  (decodeEvent ⟨[0x00#8], .none⟩ = .ok .connect ∧ decodeEvent ⟨[0x01#8], .none⟩ = .ok .close ∧
   decodeEvent ⟨[0x02#8], .none⟩ = .ok .tfail ∧ decodeEvent ⟨[0x03#8], .none⟩ = .ok .readall ∧
   decodeEvent ⟨[0x04#8], .none⟩ = .ok .writeall ∧
   (∀ q, decodeEvent ⟨[0x05#8], .profile q⟩ = .ok (.loadprofile q)) ∧
   (∀ b, decodeEvent ⟨[0x06#8, b], .none⟩ = .ok (.feed b)) ∧
   decodeEvent ⟨[0x10#8], .none⟩ = .ok .readInfo ∧ decodeEvent ⟨[0x11#8], .none⟩ = .ok .readBasic ∧
   decodeEvent ⟨[0x12#8], .none⟩ = .ok .readPedal ∧ decodeEvent ⟨[0x13#8], .none⟩ = .ok .readThrottle ∧
   decodeEvent ⟨[0x20#8], .none⟩ = .ok .writeInfo ∧ decodeEvent ⟨[0x21#8], .none⟩ = .ok .writeBasic ∧
   decodeEvent ⟨[0x22#8], .none⟩ = .ok .writePedal ∧ decodeEvent ⟨[0x23#8], .none⟩ = .ok .writeThrottle ∧
   (∀ b, decodeEvent ⟨0x30#8 :: b, .none⟩ = .ok (.csuSum b)) ∧
   (∀ b, decodeEvent ⟨0x31#8 :: b, .none⟩ = .ok (.csuAppend b)) ∧
   (∀ b, decodeEvent ⟨0x32#8 :: b, .none⟩ = .ok (.csuVerify b)) ∧
   (∀ b, decodeEvent ⟨0x33#8 :: b, .none⟩ = .ok (.csuRxok b)) ∧
   (∀ b, decodeEvent ⟨0x50#8 :: b, .none⟩ = .ok (.decGeneral b)) ∧
   (∀ b, decodeEvent ⟨0x51#8 :: b, .none⟩ = .ok (.decBasic b)) ∧
   (∀ b, decodeEvent ⟨0x52#8 :: b, .none⟩ = .ok (.decPedal b)) ∧
   (∀ b, decodeEvent ⟨0x53#8 :: b, .none⟩ = .ok (.decThrottle b)) ∧
   (∀ r, decodeEvent ⟨[0x61#8], .basic r⟩ = .ok (.encBasic r)) ∧
   (∀ r, decodeEvent ⟨[0x62#8], .pedal r⟩ = .ok (.encPedal r)) ∧
   (∀ r, decodeEvent ⟨[0x63#8], .throttle r⟩ = .ok (.encThrottle r)) ∧
   (∀ r, decodeEvent ⟨[0x71#8, r], .none⟩ = .ok (.rctBasic r)) ∧
   (∀ r, decodeEvent ⟨[0x72#8, r], .none⟩ = .ok (.rctPedal r)) ∧
   (∀ r, decodeEvent ⟨[0x73#8, r], .none⟩ = .ok (.rctThrottle r))) ∧
  (∀ (c : Byte) (args : List Byte) (o : Operand) (rest : List Event) (s : State),
    c ∉ [0x00#8, 0x01#8, 0x02#8, 0x03#8, 0x04#8, 0x05#8, 0x06#8, 0x10#8, 0x11#8, 0x12#8, 0x13#8, 0x20#8, 0x21#8,
      0x22#8, 0x23#8, 0x30#8, 0x31#8, 0x32#8, 0x33#8, 0x50#8, 0x51#8, 0x52#8, 0x53#8, 0x61#8, 0x62#8, 0x63#8,
      0x71#8, 0x72#8, 0x73#8] →
    s.input = ⟨c :: args, o⟩ :: rest → step s = .next { s with input := rest }) ∧
  (∀ i : Instr, isInternal i = true → encode i = none ∧ ∀ e, decodeEvent e ≠ .ok i)

/-- Decode and encode agree, for every well-formed instruction that has an encoding (30_encoding.md R90 to R95, R121;
the operand forms of the command port are the model's choice, log entry 2). -/
def Obligations.DecodeOfEncodeIsTheInstruction : Prop :=
  ∀ (i : Instr) (e : Encoding), i.wellFormed = true → encode i = some e → decode e = .ok i

/-- The other direction: an encoding that decodes is the encoding of what it decodes to, so each has one meaning
(the operand forms of the command port are the model's choice, log entry 2). -/
def Obligations.EncodeOfDecodeIsTheEncoding : Prop :=
  ∀ (e : Encoding) (i : Instr), decode e = .ok i → encode i = some e

/-- 60_exceptions.md R360, 10_state.md R43, R45: the command port yields public and pure operations only; neither an
internal operation nor a frame can be invoked through it. -/
def Obligations.OnlyInputEventsAreDecodedFromThePort : Prop :=
  ∀ (e : Event) (i : Instr), decodeEvent e = .ok i → isInputEvent i = true

/-- Words of the frames, written out from 30_encoding.md R91 to R95. -/
def Obligations.FrameBytesDecode : Prop :=
  decodeFrame [0x11#8, 0x51#8, 0x04#8, 0xB0#8, 0x05#8] = .ok .rq5General ∧
  decodeFrame [0x11#8, 0x52#8] = .ok .rq2Basic ∧
  decodeFrame [0x16#8, 0x54#8, 0x06#8, 0x0B#8, 0x23#8, 0x00#8, 0xFF#8, 0xFF#8, 0x0A#8, 0x90#8]
    = .ok (.wqThrottle [0x0B#8, 0x23#8, 0x00#8, 0xFF#8, 0xFF#8, 0x0A#8] 0x90#8) ∧
  decodeFrame [0x54#8, 0x06#8, 0x0B#8, 0x23#8, 0x00#8, 0xFF#8, 0xFF#8, 0x0A#8, 0xEE#8]
    = .ok (.rrThrottle [0x06#8, 0x0B#8, 0x23#8, 0x00#8, 0xFF#8, 0xFF#8, 0x0A#8, 0xEE#8]) ∧
  decodeFrame [0x52#8, 0x18#8] = .ok (.waBasic 0x18#8)

/-! ### CSU -/

/-- 40_checksum.md R142: the checksum is the sum of the bytes from offset 1 on, modulo 256. -/
def Obligations.ChecksumIsTheSumModulo256 : Prop :=
  ∀ (f : List Byte) (s : State), ∃ c : Byte,
    c.toNat = ((f.drop 1).map BitVec.toNat).sum % 256 ∧
    exec (.csuSum f) s = .next { s with ret := some (.byte c) }

/-- 40_checksum.md R141: an 8-bit accumulator gives the same byte; neither the first byte nor the order of the others
matters; the empty sum is 0. -/
def Obligations.ChecksumIsAnAccumulator : Prop :=
  (∀ f : List Byte, csuSum f = (f.drop 1).foldl (· + ·) 0#8) ∧
  (∀ (a b : Byte) (f g : List Byte), f.Perm g → csuSum (a :: f) = csuSum (b :: g)) ∧
  csuSum [] = 0#8 ∧ ∀ a : Byte, csuSum [a] = 0#8

/-- 40_checksum.md R143: CSU.APPEND returns the list with its checksum as the last byte; twice, the second byte is
twice the first. -/
def Obligations.AppendReturnsTheListWithItsChecksum : Prop :=
  (∀ (b : List Byte) (s : State), exec (.csuAppend b) s = .next { s with ret := some (.bytes (b ++ [csuSum b])) }) ∧
  (∀ b : List Byte, b ≠ [] →
    csuAppend (csuAppend b) = b ++ [csuSum b, BitVec.ofNat 8 (2 * (csuSum b).toNat)]) ∧
  csuAppend (csuAppend []) = [0#8, 0#8] ∧ csuAppend [] = [0#8] ∧ ∀ a : Byte, csuAppend [a] = [a, 0#8]

/-- 40_checksum.md R145: CSU.VERIFY compares the last byte with the checksum of the bytes before it, is false for no
bytes, and accepts whatever CSU.APPEND returns. -/
def Obligations.VerifyComparesTheLastByte : Prop :=
  (∀ (b : List Byte) (c : Byte) (s : State),
    exec (.csuVerify (b ++ [c])) s = .next { s with ret := some (.flag (decide (c = csuSum b))) }) ∧
  (∀ s : State, exec (.csuVerify []) s = .next { s with ret := some (.flag false) }) ∧
  (∀ (b : List Byte) (s : State),
    exec (.csuVerify (csuAppend b)) s = .next { s with ret := some (.flag true) }) ∧
  (∀ a : Byte, csuVerify [a] = decide (a = 0#8)) ∧ (∀ a c : Byte, csuVerify [a, c] = decide (c = 0#8)) ∧
  (∀ (a b : Byte) (g : List Byte) (c : Byte), csuVerify (a :: g ++ [c]) = csuVerify (b :: g ++ [c])) ∧
  (∀ (a : Byte) (f g : List Byte) (c : Byte), f.Perm g → csuVerify (a :: f ++ [c]) = csuVerify (a :: g ++ [c]))

/-- 40_checksum.md R147: CSU.RXOK under both values of `P_RX_SUM_FROM`; with 1 it is CSU.VERIFY. For fewer than two
bytes R147 states no result: it completes with some flag (log entry 7). -/
def Obligations.RxokSumsFromTheParameter : Prop :=
  (∀ (b : List Byte) (c : Byte) (s : State), b ≠ [] → s.params.rxSumFrom = .zero →
    exec (.csuRxok (b ++ [c])) s
      = .next { s with ret := some (.flag (decide (c.toNat = (b.map BitVec.toNat).sum % 256))) }) ∧
  (∀ (b : List Byte) (c : Byte) (s : State), b ≠ [] → s.params.rxSumFrom = .one →
    exec (.csuRxok (b ++ [c])) s
      = .next { s with ret := some (.flag (decide (c.toNat = ((b.drop 1).map BitVec.toNat).sum % 256))) } ∧
    exec (.csuRxok (b ++ [c])) s = exec (.csuVerify (b ++ [c])) s) ∧
  (∀ (f : List Byte) (s : State), f.length < 2 →
    ∃ b : Bool, exec (.csuRxok f) s = .next { s with ret := some (.flag b) })

/-! ### BCD -/

/-- 42_codec_decode.md R182: DEC.GENERAL, field by field. -/
def Obligations.DecodeGeneralFields : Prop :=
  ∀ (f : List Byte) (s : State), f.length = 19 →
    exec (.decGeneral f) s = .next { s with ret := some (.general
      { manufacturer := ⟨f.getD 2 0#8, f.getD 3 0#8, f.getD 4 0#8, f.getD 5 0#8⟩
        model := ⟨f.getD 6 0#8, f.getD 7 0#8, f.getD 8 0#8, f.getD 9 0#8⟩
        hwVer := ⟨f.getD 10 0#8, f.getD 11 0#8⟩
        fwVer := ⟨f.getD 12 0#8, f.getD 13 0#8, f.getD 14 0#8, f.getD 15 0#8⟩
        voltage := if f.getD 16 0#8 = 0#8 then .v24 else if f.getD 16 0#8 = 1#8 then .v36
          else if f.getD 16 0#8 = 2#8 then .v48 else if f.getD 16 0#8 = 3#8 then .v60
          else if f.getD 16 0#8 = 4#8 then .v24to48 else .v24to60
        maxCurrent := f.getD 17 0#8 }) }

/-- 42_codec_decode.md R186: DEC.BASIC, field by field. -/
def Obligations.DecodeBasicFields : Prop :=
  ∀ (f : List Byte) (s : State), f.length = 27 →
    exec (.decBasic f) s = .next { s with ret := some (.basic
      { lowBatteryProtect := f.getD 2 0#8
        currentLimit := f.getD 3 0#8
        assistCurrent := ⟨f.getD 4 0#8, f.getD 5 0#8, f.getD 6 0#8, f.getD 7 0#8, f.getD 8 0#8, f.getD 9 0#8,
          f.getD 10 0#8, f.getD 11 0#8, f.getD 12 0#8, f.getD 13 0#8⟩
        assistSpeed := ⟨f.getD 14 0#8, f.getD 15 0#8, f.getD 16 0#8, f.getD 17 0#8, f.getD 18 0#8, f.getD 19 0#8,
          f.getD 20 0#8, f.getD 21 0#8, f.getD 22 0#8, f.getD 23 0#8⟩
        wheelSize := if f.getD 24 0#8 = 0x37#8 then .w700C
          else .inches (BitVec.ofNat 8 (((f.getD 24 0#8).toNat + 1) >>> 1))
        speedmeterModel := .label (if (f.getD 25 0#8).toNat >>> 6 = 0 then .external
          else if (f.getD 25 0#8).toNat >>> 6 = 1 then .internal else .motorphase)
        speedmeterSignals := f.getD 25 0#8 &&& 0x3F#8 }) }

/-- 42_codec_decode.md R192: DEC.PEDAL, field by field. -/
def Obligations.DecodePedalFields : Prop :=
  ∀ (f : List Byte) (s : State), f.length = 14 →
    exec (.decPedal f) s = .next { s with ret := some (.pedal
      { pedalType := if f.getD 2 0#8 = 0#8 then .label .noPedal else if f.getD 2 0#8 = 1#8 then .label .dhSensor12
          else if f.getD 2 0#8 = 2#8 then .label .bbSensor32
          else if f.getD 2 0#8 = 3#8 then .label .doubleSignal24 else .num (f.getD 2 0#8)
        designatedAssist := if f.getD 3 0#8 = 0xFF#8 then .display else .num (f.getD 3 0#8)
        speedLimit := if f.getD 4 0#8 = 0xFF#8 then .display else .num (f.getD 4 0#8)
        startCurrent := f.getD 5 0#8
        slowStartMode := f.getD 6 0#8
        startupDegree := f.getD 7 0#8
        workMode := if f.getD 8 0#8 = 0xFF#8 then .undetermined else .num (f.getD 8 0#8)
        timeOfStop := f.getD 9 0#8
        currentDecay := f.getD 10 0#8
        stopDecay := f.getD 11 0#8
        keepCurrent := f.getD 12 0#8 }) }

/-- 42_codec_decode.md R196: DEC.THROTTLE, field by field. -/
def Obligations.DecodeThrottleFields : Prop :=
  ∀ (f : List Byte) (s : State), f.length = 9 →
    exec (.decThrottle f) s = .next { s with ret := some (.throttle
      { startVoltage := f.getD 2 0#8
        endVoltage := f.getD 3 0#8
        mode := if f.getD 4 0#8 = 0#8 then .label .speed else if f.getD 4 0#8 = 1#8 then .label .current
          else .num (f.getD 4 0#8)
        designatedAssist := if f.getD 5 0#8 = 0xFF#8 then .display else .num (f.getD 5 0#8)
        speedLimit := if f.getD 6 0#8 = 0xFF#8 then .display else .num (f.getD 6 0#8)
        startCurrent := f.getD 7 0#8 }) }

/-- 42_codec_decode.md R181: a frame of another length gives `DEC_ERR` and nothing else happens. -/
def Obligations.DecodeOfAnotherLengthIsDecErr : Prop :=
  ∀ (f : List Byte) (s : State),
    (f.length ≠ 19 → exec (.decGeneral f) s = .next { s with ret := some .decErr }) ∧
    (f.length ≠ 27 → exec (.decBasic f) s = .next { s with ret := some .decErr }) ∧
    (f.length ≠ 14 → exec (.decPedal f) s = .next { s with ret := some .decErr }) ∧
    (f.length ≠ 9 → exec (.decThrottle f) s = .next { s with ret := some .decErr })

/-- 43_codec_encode.md R222, R224: ENC.BASIC, byte by byte, and its three `ENC_ERR` cases. -/
def Obligations.EncodeBasicPayload : Prop :=
  ∀ (r : BasicRecord) (s : State),
    ((∀ n, r.wheelSize = .inches n → n.toNat ≤ 127) → r.speedmeterSignals.toNat ≤ 63 →
      (∀ n, r.speedmeterModel ≠ .num n) →
      exec (.encBasic r) s = .next { s with ret := some (.bytes
        [r.lowBatteryProtect, r.currentLimit,
         r.assistCurrent.l0, r.assistCurrent.l1, r.assistCurrent.l2, r.assistCurrent.l3, r.assistCurrent.l4,
         r.assistCurrent.l5, r.assistCurrent.l6, r.assistCurrent.l7, r.assistCurrent.l8, r.assistCurrent.l9,
         r.assistSpeed.l0, r.assistSpeed.l1, r.assistSpeed.l2, r.assistSpeed.l3, r.assistSpeed.l4,
         r.assistSpeed.l5, r.assistSpeed.l6, r.assistSpeed.l7, r.assistSpeed.l8, r.assistSpeed.l9,
         (match r.wheelSize with
          | .w700C => 0x37#8
          | .inches n => BitVec.ofNat 8 (2 * n.toNat)),
         (match r.speedmeterModel with
          | .label .internal => BitVec.ofNat 8 (1 * 64 + r.speedmeterSignals.toNat)
          | .label .motorphase => BitVec.ofNat 8 (3 * 64 + r.speedmeterSignals.toNat)
          | _ => r.speedmeterSignals)]) }) ∧
    ((∃ n, r.wheelSize = .inches n ∧ 128 ≤ n.toNat) ∨ 63 < r.speedmeterSignals.toNat ∨
      (∃ n, r.speedmeterModel = .num n) →
      exec (.encBasic r) s = .next { s with ret := some .encErr })

/-- 43_codec_encode.md R232, R240: ENC.PEDAL and ENC.THROTTLE, byte by byte; never `ENC_ERR`. -/
def Obligations.EncodePedalAndThrottlePayload : Prop :=
  (∀ (r : PedalRecord) (s : State),
    exec (.encPedal r) s = .next { s with ret := some (.bytes
      [(match r.pedalType with
        | .label .noPedal => 0#8
        | .label .dhSensor12 => 1#8
        | .label .bbSensor32 => 2#8
        | .label .doubleSignal24 => 3#8
        | .num n => n
        | .invalidLabel => 0#8),
       (match r.designatedAssist with
        | .display => 0xFF#8
        | .num n => n),
       (match r.speedLimit with
        | .display => 0xFF#8
        | .num n => n),
       r.startCurrent, r.slowStartMode, r.startupDegree,
       (match r.workMode with
        | .undetermined => 0xFF#8
        | .num n => n),
       r.timeOfStop, r.currentDecay, r.stopDecay, r.keepCurrent]) }) ∧
  (∀ (r : ThrottleRecord) (s : State),
    exec (.encThrottle r) s = .next { s with ret := some (.bytes
      [r.startVoltage, r.endVoltage,
       (match r.mode with
        | .label .speed => 0#8
        | .label .current => 1#8
        | .num n => n
        | .invalidLabel => 0#8),
       (match r.designatedAssist with
        | .display => 0xFF#8
        | .num n => n),
       (match r.speedLimit with
        | .display => 0xFF#8
        | .num n => n),
       r.startCurrent]) })

/-- 42_codec_decode.md R200: what ENC.k returns, framed as a read response of its kind with any two bytes at the offsets
no decoder reads, decodes to the canonical record with the same bytes; a canonical record comes back as it was. -/
def Obligations.DecodeAfterEncodeIsCanonical : Prop :=
  (∀ (r : BasicRecord) (s t : State) (p : List Byte) (x y : Byte),
    exec (.encBasic r) s = .next t → t.ret = some (.bytes p) →
    exec (.decBasic ([0x52#8, x] ++ p ++ [y])) t = .next { t with ret := some (.basic (canonBasic r)) }) ∧
  (∀ (r : PedalRecord) (s t : State) (p : List Byte) (x y : Byte),
    exec (.encPedal r) s = .next t → t.ret = some (.bytes p) →
    exec (.decPedal ([0x53#8, x] ++ p ++ [y])) t = .next { t with ret := some (.pedal (canonPedal r)) }) ∧
  (∀ (r : ThrottleRecord) (s t : State) (p : List Byte) (x y : Byte),
    exec (.encThrottle r) s = .next t → t.ret = some (.bytes p) →
    exec (.decThrottle ([0x54#8, x] ++ p ++ [y])) t = .next { t with ret := some (.throttle (canonThrottle r)) }) ∧
  (∀ r : BasicRecord, r.speedmeterModel ≠ .invalidLabel → canonBasic r = r) ∧
  (∀ r : PedalRecord, r.pedalType ≠ .invalidLabel → (∀ n, r.pedalType = .num n → 3 < n.toNat) →
    r.designatedAssist ≠ .num 0xFF#8 → r.speedLimit ≠ .num 0xFF#8 → r.workMode ≠ .num 0xFF#8 → canonPedal r = r) ∧
  (∀ r : ThrottleRecord, r.mode ≠ .invalidLabel → (∀ n, r.mode = .num n → 1 < n.toNat) →
    r.designatedAssist ≠ .num 0xFF#8 → r.speedLimit ≠ .num 0xFF#8 → canonThrottle r = r)

/-- 42_codec_decode.md R201: what DEC.k returns encodes back to the frame's own field bytes, but for the two lossy bytes
of Basic. -/
def Obligations.EncodeAfterDecodeIsTheFrame : Prop :=
  (∀ (f : List Byte) (s : State), f.length = 27 → ∃ r,
    exec (.decBasic f) s = .next { s with ret := some (.basic r) } ∧
    exec (.encBasic r) s = .next { s with ret := some (
      match reencodedWheel (f.getD 24 0#8) with
      | none => .encErr
      | some w => .bytes ((f.drop 2).take 22 ++ [w, reencodedSpeed (f.getD 25 0#8)])) }) ∧
  (∀ (f : List Byte) (s : State), f.length = 14 → ∃ r,
    exec (.decPedal f) s = .next { s with ret := some (.pedal r) } ∧
    exec (.encPedal r) s = .next { s with ret := some (.bytes ((f.drop 2).take 11)) }) ∧
  (∀ (f : List Byte) (s : State), f.length = 9 → ∃ r,
    exec (.decThrottle f) s = .next { s with ret := some (.throttle r) } ∧
    exec (.encThrottle r) s = .next { s with ret := some (.bytes ((f.drop 2).take 6)) })

/-- 10_state.md R29: the renderings of the text fields (as ASCII codes, log entry 15), of the voltage and of the wheel
size; 10_state.md R28: the labels of the four enumerations. -/
def Obligations.RenderingsOfTextFields : Prop :=
  (∀ t : Text2, renderDotted (text2Bytes t) = [t.c0, 0x2E#8, t.c1]) ∧
  (∀ t : Text4, renderDotted (text4Bytes t) = [t.c0, 0x2E#8, t.c1, 0x2E#8, t.c2, 0x2E#8, t.c3]) ∧
  (∀ t : Text2, renderText (text2Bytes t) = [t.c0, t.c1]) ∧
  (∀ t : Text4, renderText (text4Bytes t) = [t.c0, t.c1, t.c2, t.c3]) ∧
  (renderVolt .v24 = "24V" ∧ renderVolt .v36 = "36V" ∧ renderVolt .v48 = "48V" ∧ renderVolt .v60 = "60V" ∧
    renderVolt .v24to48 = "24V-48V" ∧ renderVolt .v24to60 = "24V-60V") ∧
  renderWheel .w700C = "700C" ∧ (∀ n : Byte, renderWheel (.inches n) = toString n.toNat) ∧
  (speedModelLabel .external = "External" ∧ speedModelLabel .internal = "Internal" ∧
    speedModelLabel .motorphase = "Motorphase") ∧
  (pedalTypeLabel .noPedal = "None" ∧ pedalTypeLabel .dhSensor12 = "DH-Sensor-12" ∧
    pedalTypeLabel .bbSensor32 = "BB-Sensor-32" ∧ pedalTypeLabel .doubleSignal24 = "DoubleSignal-24") ∧
  throttleModeLabel .speed = "Speed" ∧ throttleModeLabel .current = "Current"

/-! ### RCT -/

/-- 44_result_code.md R262, R263: RCT.BASIC by the arithmetic of the rule. -/
def Obligations.RctBasicVerdict : Prop :=
  ∀ (r : Byte) (s : State), exec (.rctBasic r) s = .next { s with ret := some (.verdict (
    if r.toNat = 0 then .fieldError .basic .lowBatteryProtect
    else if r.toNat = 1 then .fieldError .basic .currentLimit
    else if r.toNat ≤ 21 then
      if r.toNat % 2 = 0 then .fieldError .basic (.assistCurrent (Fin.ofNat 10 ((r.toNat - 2) / 2)))
      else .fieldError .basic (.assistSpeed (Fin.ofNat 10 ((r.toNat - 3) / 2)))
    else if r.toNat = 22 then .fieldError .basic .wheelSize
    else if r.toNat = 23 then .fieldError .basic .speedmeterSignals
    else if r.toNat = 24 then .success
    else .unknownCode r)) }

/-- 44_result_code.md R264 to R267: RCT.PEDAL and RCT.THROTTLE name the field at the payload index of the code. -/
def Obligations.RctPedalAndThrottleVerdict : Prop :=
  ∀ (r : Byte) (s : State),
    exec (.rctPedal r) s = .next { s with ret := some (.verdict (
      if r.toNat < 11 then .fieldError .pedalAssist
        ([FieldName.pedalType, .designatedAssist, .speedLimit, .startCurrent, .slowStartMode, .startupDegree,
          .workMode, .timeOfStop, .currentDecay, .stopDecay, .keepCurrent].getD r.toNat .mode)
      else if r.toNat = 11 then .success else .unknownCode r)) } ∧
    exec (.rctThrottle r) s = .next { s with ret := some (.verdict (
      if r.toNat < 6 then .fieldError .throttle
        ([FieldName.startVoltage, .endVoltage, .mode, .designatedAssist, .speedLimit, .startCurrent].getD r.toNat
          .wheelSize)
      else if r.toNat = 6 then .success else .unknownCode r)) }

/-! ### SEQ, the host operations -/

/-- 45_session.md R285, 60_exceptions.md R352: CONNECT. -/
def Obligations.ConnectReadsGeneral : Prop :=
  ∀ s : State,
    (s.conn = false → exec .connect s = .next { s with
      conn := true, chain := false, need := 19, ctx := ⟨.read, .general⟩, buf := [],
      out := s.out ++ [.ev (.transportState true), .tx [0x11#8, 0x51#8, 0x04#8, 0xB0#8, 0x05#8]] }) ∧
    (s.conn = true → exec .connect s = .next { s with out := s.out ++ [.log .wAlreadyConnected] })

/-- 45_session.md R301: CLOSE. -/
def Obligations.CloseResetsTheSession : Prop :=
  ∀ s : State,
    (s.conn = true → exec .close s = .next { s with
      need := 0, buf := [], chain := false, conn := false, out := s.out ++ [.ev (.transportState false)] }) ∧
    (s.conn = false → exec .close s = .next s)

/-- 45_session.md R303, 60_exceptions.md R346: TFAIL. -/
def Obligations.TransportFailureLogsAndCloses : Prop :=
  ∀ s : State,
    (s.conn = true → exec .tfail s = .next { s with
      need := 0, buf := [], chain := false, conn := false,
      out := s.out ++ [.log .eTransport, .ev (.transportState false)] }) ∧
    (s.conn = false → exec .tfail s = .next { s with out := s.out ++ [.log .eTransport] })

/-- 45_session.md R305: LOADPROFILE replaces all four slots, in every state, and touches nothing else. -/
def Obligations.LoadProfileReplacesAllSlots : Prop :=
  ∀ (q : Profile) (s : State), exec (.loadprofile q) s = .next { s with
    prf := { info := q.info, basic := q.basic, pedal := q.pedal, throttle := q.throttle } }

/-- 45_session.md R287, R284: READ k from Idle and connected. -/
def Obligations.ReadSendsAndArms : Prop :=
  ∀ s : State, s.conn = true → s.need = 0 →
    exec .readInfo s = .next { s with
      need := 19, ctx := ⟨.read, .general⟩, buf := [],
      out := s.out ++ [.tx [0x11#8, 0x51#8, 0x04#8, 0xB0#8, 0x05#8]] } ∧
    exec .readBasic s = .next { s with
      need := 27, ctx := ⟨.read, .basic⟩, buf := [],
      out := s.out ++ [.tx [0x11#8, 0x52#8]] } ∧
    exec .readPedal s = .next { s with
      need := 14, ctx := ⟨.read, .pedalAssist⟩, buf := [],
      out := s.out ++ [.tx [0x11#8, 0x53#8]] } ∧
    exec .readThrottle s = .next { s with
      need := 9, ctx := ⟨.read, .throttle⟩, buf := [],
      out := s.out ++ [.tx [0x11#8, 0x54#8]] }

/-- 45_session.md R286, 60_exceptions.md R340, R341: the request guard of READ and WRITE, and through them of READALL and
WRITEALL, which have already set `chain`. -/
def Obligations.RequestGuardRefuses : Prop :=
  ∀ s : State,
    (s.conn = false →
      (∀ i ∈ [Instr.readInfo, .readBasic, .readPedal, .readThrottle, .writeInfo, .writeBasic, .writePedal,
        .writeThrottle], exec i s = .next { s with out := s.out ++ [.log .wNotConnected] }) ∧
      (∀ i ∈ [Instr.readall, .writeall],
        exec i s = .next { s with chain := true, out := s.out ++ [.log .wNotConnected] })) ∧
    (s.conn = true → 0 < s.need →
      (∀ i ∈ [Instr.readInfo, .readBasic, .readPedal, .readThrottle, .writeInfo, .writeBasic, .writePedal,
        .writeThrottle], exec i s = .next { s with out := s.out ++ [.log (.wBusy s.ctx s.need)] }) ∧
      (∀ i ∈ [Instr.readall, .writeall],
        exec i s = .next { s with chain := true, out := s.out ++ [.log (.wBusy s.ctx s.need)] }))

/-- 45_session.md R291: READALL from Idle and connected. -/
def Obligations.ReadAllStartsTheChain : Prop :=
  ∀ s : State, s.conn = true → s.need = 0 →
    exec .readall s = .next { s with
      chain := true, need := 27, ctx := ⟨.read, .basic⟩, buf := [],
      out := s.out ++ [.tx [0x11#8, 0x52#8]] }

/-- 45_session.md R292: WRITEALL from Idle and connected, and refused for an absent or unencodable Basic record. -/
def Obligations.WriteAllStartsTheChain : Prop :=
  ∀ s : State, s.conn = true → s.need = 0 →
    (∀ r p, s.prf.basic = some r → encodeBasic r = some p →
      exec .writeall s = .next { s with
        chain := true, need := 2, ctx := ⟨.write, .basic⟩, buf := [],
        out := s.out ++ [.tx ([0x16#8, 0x52#8, 0x18#8] ++ p ++ [csuSum ([0x16#8, 0x52#8, 0x18#8] ++ p)])] }) ∧
    (s.prf.basic = none →
      exec .writeall s = .next { s with chain := true, out := s.out ++ [.log (.wNoRecord .basic)] }) ∧
    (∀ r, s.prf.basic = some r → encodeBasic r = none →
      exec .writeall s = .next { s with chain := true, out := s.out ++ [.log (.wEncRange .basic)] })

/-- 45_session.md R289, R284, 30_encoding.md R93: WRITE k from Idle and connected, with a record that can be encoded. -/
def Obligations.WriteSendsAndArms : Prop :=
  ∀ s : State, s.conn = true → s.need = 0 →
    (∀ r p, s.prf.basic = some r → encodeBasic r = some p →
      exec .writeBasic s = .next { s with
        need := 2, ctx := ⟨.write, .basic⟩, buf := [],
        out := s.out ++ [.tx ([0x16#8, 0x52#8, 0x18#8] ++ p ++ [csuSum ([0x16#8, 0x52#8, 0x18#8] ++ p)])] }) ∧
    (∀ r, s.prf.pedal = some r →
      exec .writePedal s = .next { s with
        need := 2, ctx := ⟨.write, .pedalAssist⟩, buf := [],
        out := s.out ++ [.tx ([0x16#8, 0x53#8, 0x0B#8] ++ encodePedal r
          ++ [csuSum ([0x16#8, 0x53#8, 0x0B#8] ++ encodePedal r)])] }) ∧
    (∀ r, s.prf.throttle = some r →
      exec .writeThrottle s = .next { s with
        need := 2, ctx := ⟨.write, .throttle⟩, buf := [],
        out := s.out ++ [.tx ([0x16#8, 0x54#8, 0x06#8] ++ encodeThrottle r
          ++ [csuSum ([0x16#8, 0x54#8, 0x06#8] ++ encodeThrottle r)])] })

/-- 45_session.md R290, 60_exceptions.md R347 to R349: WRITE past the guard is refused for General (the only effect WRITE
info has), for an absent record, and for a record that cannot be encoded. -/
def Obligations.WriteRefusals : Prop :=
  ∀ s : State, s.conn = true → s.need = 0 →
    exec .writeInfo s = .next { s with out := s.out ++ [.log .wGeneralWrite] } ∧
    (s.prf.basic = none → exec .writeBasic s = .next { s with out := s.out ++ [.log (.wNoRecord .basic)] }) ∧
    (s.prf.pedal = none → exec .writePedal s = .next { s with out := s.out ++ [.log (.wNoRecord .pedalAssist)] }) ∧
    (s.prf.throttle = none →
      exec .writeThrottle s = .next { s with out := s.out ++ [.log (.wNoRecord .throttle)] }) ∧
    (∀ r, s.prf.basic = some r → encodeBasic r = none →
      exec .writeBasic s = .next { s with out := s.out ++ [.log (.wEncRange .basic)] })

/-! ### FRA -/

/-- 41_frame_assembler.md R161, R162: FRA.ARM disarmed, armed, and with an illegal length. -/
def Obligations.ArmInstallsTheExpectation : Prop :=
  ∀ (e : Nat) (c : Ctx) (s : State),
    (1 ≤ e → e ≤ 27 → s.need = 0 → exec (.fraArm e c) s = .next { s with buf := [], need := e, ctx := c }) ∧
    (1 ≤ e → e ≤ 27 → 0 < s.need → exec (.fraArm e c) s = .next { s with
      buf := [], need := e, ctx := c,
      out := s.out ++ [.log (.wRearm s.ctx s.buf.length s.need)] }) ∧
    (e < 1 ∨ 27 < e → exec (.fraArm e c) s = .next { s with out := s.out ++ [.log (.wArmLen e)] })

/-- 41_frame_assembler.md R167: FRA.CANCEL. -/
def Obligations.CancelDiscardsThePartialFrame : Prop :=
  ∀ s : State, exec .fraCancel s = .next { s with buf := [], need := 0 }

/-- 41_frame_assembler.md R163 to R165: FEED stray, accepted, and completing. -/
def Obligations.FeedStrayAcceptedOrCompleting : Prop :=
  ∀ (b : Byte) (s : State),
    (s.need = 0 → exec (.feed b) s = .next { s with out := s.out ++ [.log (.wStray b)] }) ∧
    (1 < s.need → exec (.feed b) s = .next { s with buf := s.buf ++ [b], need := s.need - 1 }) ∧
    (∀ k, s.need = 1 → s.ctx = ⟨.read, k⟩ →
      exec (.feed b) s = exec (.completeRead (s.buf ++ [b]) k) { s with need := 0, buf := [] }) ∧
    (∀ k, s.need = 1 → s.ctx = ⟨.write, k⟩ →
      exec (.feed b) s = exec (.completeWrite (s.buf ++ [b]) k) { s with need := 0, buf := [] })

/-- 41_frame_assembler.md R166: of the bytes fed since arming, each of the first `E - 1` changes only `buf` and `need`,
and exactly the last runs the completion, with all bytes in order and the context of the arming. Here as steps of the
machine over the events of the `RX` line (30_encoding.md R123). -/
def Obligations.FeedingExactlyTheExpectedBytes : Prop :=
  ∀ (bytes : List Byte) (rest : List Event) (s : State),
    (bytes.length < s.need →
      core.run bytes.length { s with input := rxEvents bytes ++ rest }
        = .next { s with buf := s.buf ++ bytes, need := s.need - bytes.length, input := rest }) ∧
    (∀ k, bytes ≠ [] → s.need = bytes.length → s.ctx = ⟨.read, k⟩ →
      core.run bytes.length { s with input := rxEvents bytes ++ rest }
        = exec (.completeRead (s.buf ++ bytes) k) { s with need := 0, buf := [], input := rest }) ∧
    (∀ k, bytes ≠ [] → s.need = bytes.length → s.ctx = ⟨.write, k⟩ →
      core.run bytes.length { s with input := rxEvents bytes ++ rest }
        = exec (.completeWrite (s.buf ++ bytes) k) { s with need := 0, buf := [], input := rest })

/-- 30_encoding.md R123, 20_memory.md R62: a received frame (RR.k, WA.k) as an instruction is exactly the steps of the
machine over the FEED events of its bytes. -/
def Obligations.ReceivedFrameIsItsBytesInOrder : Prop :=
  ∀ (i : Instr) (bytes : List Byte) (rest : List Event) (s : State),
    encode i = some (.frame bytes) → bytes.head? ≠ some 0x11#8 → bytes.head? ≠ some 0x16#8 →
    core.run bytes.length { s with input := rxEvents bytes ++ rest } = exec i { s with input := rest }

/-! ### SEQ, completion -/

/-- 45_session.md R296 without a chain step: the decoded record goes to its slot, `BlockRead(k)` is emitted; a Throttle
completion clears `chain` whether or not it was set. -/
def Obligations.ReadCompletionStoresTheRecord : Prop :=
  ∀ (f : List Byte) (s : State), (s.params.verifyRx = true → csuRxok s.params.rxSumFrom f = true) →
    (f.length = 19 → f.getD 0 0#8 = 0x51#8 → s.chain = false → ∃ r, decodeGeneral f = some r ∧
      exec (.completeRead f .general) s = .next { s with
        prf := { s.prf with info := some r },
        out := s.out ++ [.ev (.blockRead .general)] }) ∧
    (f.length = 27 → f.getD 0 0#8 = 0x52#8 → s.chain = false → ∃ r, decodeBasic f = some r ∧
      exec (.completeRead f .basic) s = .next { s with
        prf := { s.prf with basic := some r },
        out := s.out ++ [.ev (.blockRead .basic)] }) ∧
    (f.length = 14 → f.getD 0 0#8 = 0x53#8 → s.chain = false → ∃ r, decodePedal f = some r ∧
      exec (.completeRead f .pedalAssist) s = .next { s with
        prf := { s.prf with pedal := some r },
        out := s.out ++ [.ev (.blockRead .pedalAssist)] }) ∧
    (f.length = 9 → f.getD 0 0#8 = 0x54#8 → ∃ r, decodeThrottle f = some r ∧
      exec (.completeRead f .throttle) s = .next { s with
        prf := { s.prf with throttle := some r }, chain := false,
        out := s.out ++ [.ev (.blockRead .throttle)] })

/-- 45_session.md R296, R283, 70_reset_and_hazards.md R382: under `chain` the completion goes on to the next block, from
General too. -/
def Obligations.ReadCompletionChains : Prop :=
  ∀ (f : List Byte) (s : State), (s.params.verifyRx = true → csuRxok s.params.rxSumFrom f = true) →
    s.chain = true → s.conn = true → s.need = 0 →
    (f.length = 19 → f.getD 0 0#8 = 0x51#8 → ∃ r, decodeGeneral f = some r ∧
      exec (.completeRead f .general) s = .next { s with
        prf := { s.prf with info := some r },
        need := 27, ctx := ⟨.read, .basic⟩, buf := [],
        out := s.out ++ [.ev (.blockRead .general), .tx [0x11#8, 0x52#8]] }) ∧
    (f.length = 27 → f.getD 0 0#8 = 0x52#8 → ∃ r, decodeBasic f = some r ∧
      exec (.completeRead f .basic) s = .next { s with
        prf := { s.prf with basic := some r },
        need := 14, ctx := ⟨.read, .pedalAssist⟩, buf := [],
        out := s.out ++ [.ev (.blockRead .basic), .tx [0x11#8, 0x53#8]] }) ∧
    (f.length = 14 → f.getD 0 0#8 = 0x53#8 → ∃ r, decodePedal f = some r ∧
      exec (.completeRead f .pedalAssist) s = .next { s with
        prf := { s.prf with pedal := some r },
        need := 9, ctx := ⟨.read, .throttle⟩, buf := [],
        out := s.out ++ [.ev (.blockRead .pedalAssist), .tx [0x11#8, 0x54#8]] })

/-- 45_session.md R294, R295, 60_exceptions.md R344, R351: a completed frame is dropped for its checksum (reads, under
`P_VERIFY_RX`) or its block id: one log record and nothing else. -/
def Obligations.RejectedFramesAreDropped : Prop :=
  ∀ (f : List Byte) (k : Kind) (s : State),
    (f.length = Config.len k → s.params.verifyRx = true → csuRxok s.params.rxSumFrom f = false →
      exec (.completeRead f k) s = .next { s with out := s.out ++ [.log (.eRxChecksum k f)] }) ∧
    (f.length = Config.len k → (s.params.verifyRx = true → csuRxok s.params.rxSumFrom f = true) →
      f.getD 0 0#8 ≠ Config.blockId k →
      exec (.completeRead f k) s = .next { s with out := s.out ++ [.log (.wUnknownId (f.getD 0 0#8) k)] }) ∧
    (f.length = 2 → f.getD 0 0#8 ≠ Config.blockId k →
      exec (.completeWrite f k) s = .next { s with out := s.out ++ [.log (.wUnknownId (f.getD 0 0#8) k)] })

/-- 45_session.md R298: an acknowledgement with the success code: `BlockWritten(k, null)`; without `chain` nothing more,
under `chain` WRITE of the next block; a Throttle acknowledgement clears `chain`. -/
def Obligations.WriteCompletionSuccess : Prop :=
  ∀ s : State,
    (s.chain = false → exec (.completeWrite [0x52#8, 0x18#8] .basic) s
      = .next { s with out := s.out ++ [.ev (.blockWritten .basic none)] }) ∧
    (s.chain = false → exec (.completeWrite [0x53#8, 0x0B#8] .pedalAssist) s
      = .next { s with out := s.out ++ [.ev (.blockWritten .pedalAssist none)] }) ∧
    exec (.completeWrite [0x54#8, 0x06#8] .throttle) s
      = .next { s with chain := false, out := s.out ++ [.ev (.blockWritten .throttle none)] } ∧
    (s.chain = true → exec (.completeWrite [0x52#8, 0x18#8] .basic) s
      = exec .writePedal { s with out := s.out ++ [.ev (.blockWritten .basic none)] }) ∧
    (s.chain = true → exec (.completeWrite [0x53#8, 0x0B#8] .pedalAssist) s
      = exec .writeThrottle { s with out := s.out ++ [.ev (.blockWritten .pedalAssist none)] })

/-- 45_session.md R299, 60_exceptions.md R345: any other code: `E_WRITE_REJECTED`, then `BlockWritten(k, v)`; `chain` as
it was, and no chain step, unless `P_WFAIL_ADVANCE`. -/
def Obligations.WriteCompletionFailure : Prop :=
  ∀ (c : Byte) (s : State),
    (c ≠ 0x18#8 → (s.params.wfailAdvance = false ∨ s.chain = false) →
      exec (.completeWrite [0x52#8, c] .basic) s = .next { s with out := s.out ++
        [.log (.eWriteRejected .basic c), .ev (.blockWritten .basic (some (rctBasic c)))] }) ∧
    (c ≠ 0x0B#8 → (s.params.wfailAdvance = false ∨ s.chain = false) →
      exec (.completeWrite [0x53#8, c] .pedalAssist) s = .next { s with out := s.out ++
        [.log (.eWriteRejected .pedalAssist c), .ev (.blockWritten .pedalAssist (some (rctPedal c)))] }) ∧
    (c ≠ 0x06#8 →
      exec (.completeWrite [0x54#8, c] .throttle) s = .next { s with
        chain := if s.params.wfailAdvance then false else s.chain
        out := s.out ++
          [.log (.eWriteRejected .throttle c), .ev (.blockWritten .throttle (some (rctThrottle c)))] }) ∧
    (c ≠ 0x18#8 → s.params.wfailAdvance = true → s.chain = true →
      exec (.completeWrite [0x52#8, c] .basic) s = exec .writePedal { s with out := s.out ++
        [.log (.eWriteRejected .basic c), .ev (.blockWritten .basic (some (rctBasic c)))] }) ∧
    (c ≠ 0x0B#8 → s.params.wfailAdvance = true → s.chain = true →
      exec (.completeWrite [0x53#8, c] .pedalAssist) s = exec .writeThrottle { s with out := s.out ++
        [.log (.eWriteRejected .pedalAssist c), .ev (.blockWritten .pedalAssist (some (rctPedal c)))] })

/-- The model's stops (log entry 14): a completion step on a frame of another length than its rule is stated for, and a
write completion for General once the block id has passed (a two-byte frame whose id is 51), since General has no
translator (44_result_code.md R261). A two-byte frame with another id is RejectedFramesAreDropped. -/
def Obligations.CompletionOutsideItsDomainStops : Prop :=
  ∀ (f : List Byte) (k : Kind) (s : State),
    (f.length ≠ Config.len k → exec (.completeRead f k) s = .fault .completionLength) ∧
    (f.length ≠ 2 → exec (.completeWrite f k) s = .fault .completionLength) ∧
    (∀ c, exec (.completeWrite [0x51#8, c] .general) s = .fault .noTranslator)

/-! ### The frames as instructions -/

/-- 30_encoding.md R94, 45_session.md R296: a read response received whole by a block armed for it, without verification
and without a chain: the record is stored, the block is Idle. -/
def Obligations.ReadResponseFillsItsSlot : Prop :=
  ∀ (rest : List Byte) (s : State), s.params.verifyRx = false → s.chain = false → s.buf = [] →
    (rest.length = 18 → s.need = 19 → s.ctx = ⟨.read, .general⟩ → ∃ r, decodeGeneral (0x51#8 :: rest) = some r ∧
      exec (.rrGeneral rest) s = .next { s with
        prf := { s.prf with info := some r }, need := 0,
        out := s.out ++ [.ev (.blockRead .general)] }) ∧
    (rest.length = 26 → s.need = 27 → s.ctx = ⟨.read, .basic⟩ → ∃ r, decodeBasic (0x52#8 :: rest) = some r ∧
      exec (.rrBasic rest) s = .next { s with
        prf := { s.prf with basic := some r }, need := 0,
        out := s.out ++ [.ev (.blockRead .basic)] }) ∧
    (rest.length = 13 → s.need = 14 → s.ctx = ⟨.read, .pedalAssist⟩ → ∃ r, decodePedal (0x53#8 :: rest) = some r ∧
      exec (.rrPedal rest) s = .next { s with
        prf := { s.prf with pedal := some r }, need := 0,
        out := s.out ++ [.ev (.blockRead .pedalAssist)] }) ∧
    (rest.length = 8 → s.need = 9 → s.ctx = ⟨.read, .throttle⟩ → ∃ r, decodeThrottle (0x54#8 :: rest) = some r ∧
      exec (.rrThrottle rest) s = .next { s with
        prf := { s.prf with throttle := some r }, need := 0,
        out := s.out ++ [.ev (.blockRead .throttle)] })

/-- 30_encoding.md R95, R113, 45_session.md R298, R299: a write acknowledgement received whole by a block armed for it,
without a chain, with the success code and with any other. -/
def Obligations.AcknowledgementEndsTheWrite : Prop :=
  ∀ (c : Byte) (s : State), s.chain = false → s.buf = [] → s.need = 2 →
    (s.ctx = ⟨.write, .basic⟩ → exec (.waBasic c) s = .next { s with need := 0, out := s.out ++
      if c = 0x18#8 then [.ev (.blockWritten .basic none)]
      else [.log (.eWriteRejected .basic c), .ev (.blockWritten .basic (some (rctBasic c)))] }) ∧
    (s.ctx = ⟨.write, .pedalAssist⟩ → exec (.waPedal c) s = .next { s with need := 0, out := s.out ++
      if c = 0x0B#8 then [.ev (.blockWritten .pedalAssist none)]
      else [.log (.eWriteRejected .pedalAssist c), .ev (.blockWritten .pedalAssist (some (rctPedal c)))] }) ∧
    (s.ctx = ⟨.write, .throttle⟩ → exec (.waThrottle c) s = .next { s with need := 0, out := s.out ++
      if c = 0x06#8 then [.ev (.blockWritten .throttle none)]
      else [.log (.eWriteRejected .throttle c), .ev (.blockWritten .throttle (some (rctThrottle c)))] })

/-- 41_frame_assembler.md R164, 20_memory.md R65 (a): a response that arrives while the block is not armed is dropped
byte by byte, each logged. -/
def Obligations.ResponseWhileIdleIsStray : Prop :=
  ∀ (i : Instr) (bytes : List Byte) (s : State), s.need = 0 → encode i = some (.frame bytes) →
    bytes.head? ≠ some 0x11#8 → bytes.head? ≠ some 0x16#8 →
    exec i s = .next { s with out := s.out ++ bytes.map fun b => .log (.wStray b) }

/-- 10_state.md R40, 30_encoding.md R91 to R93: a transmit frame as an instruction is the `send` of exactly its bytes
(the model's choice, log entry 10). -/
def Obligations.TransmitFrameIsSentWhole : Prop :=
  (∀ s : State,
    exec .rq5General s = .next { s with out := s.out ++ [.tx [0x11#8, 0x51#8, 0x04#8, 0xB0#8, 0x05#8]] } ∧
    exec .rq2Basic s = .next { s with out := s.out ++ [.tx [0x11#8, 0x52#8]] } ∧
    exec .rq2Pedal s = .next { s with out := s.out ++ [.tx [0x11#8, 0x53#8]] } ∧
    exec .rq2Throttle s = .next { s with out := s.out ++ [.tx [0x11#8, 0x54#8]] }) ∧
  (∀ (p : List Byte) (c : Byte) (s : State),
    exec (.wqBasic p c) s = .next { s with out := s.out ++ [.tx (0x16#8 :: 0x52#8 :: 0x18#8 :: p ++ [c])] } ∧
    exec (.wqPedal p c) s = .next { s with out := s.out ++ [.tx (0x16#8 :: 0x53#8 :: 0x0B#8 :: p ++ [c])] } ∧
    exec (.wqThrottle p c) s = .next { s with out := s.out ++ [.tx (0x16#8 :: 0x54#8 :: 0x06#8 :: p ++ [c])] })

/-! ### The whole machine -/

/-- 10_state.md R36: every step keeps the invariants (a) to (e). -/
def Obligations.StepKeepsTheInvariants : Prop :=
  ∀ s t : State, s.Inv → step s = .next t → t.Inv

/-- 10_state.md R36, R44: the invariants hold at reset. -/
def Obligations.ResetMeetsTheInvariants : Prop := State.reset.Inv

/-- 10_state.md R36: every reachable state, whatever the parameters and the input events, satisfies the invariants. -/
def Obligations.ReachableStatesMeetTheInvariants : Prop :=
  ∀ s : State, Reachable s →
    (s.need ≤ 27 ∧ s.buf.length ≤ 27) ∧
    (s.need = 0 → s.buf = []) ∧
    (0 < s.need → s.buf.length + s.need =
      match s.ctx.dir with
      | .read => Config.len s.ctx.kind
      | .write => 2) ∧
    (0 < s.need → s.conn = true) ∧
    (s.ctx.dir = .write → 0 < s.need → s.ctx.kind ≠ .general)

/-- 41_frame_assembler.md R160, 45_session.md R307 (f): in a state that meets the invariants no event stops the machine;
a step is refused only for an event that is no input event (log entry 3). -/
def Obligations.NoInputEventStopsTheMachine : Prop :=
  ∀ s : State, s.Inv →
    (∀ r, step s ≠ .fault r) ∧
    (∀ r, step s = .refused r → ∃ e rest err, s.input = e :: rest ∧ decodeEvent e = .error err ∧
      (∀ c, err ≠ .reservedWord c) ∧ r = .malformedEvent err)

/-- 45_session.md R307 (e), 10_state.md R22: of the input events, only LOADPROFILE (all slots) and the FEED that
completes a read (the slot of its kind) change PRF. -/
def Obligations.OnlyReadsAndLoadsChangeTheProfile : Prop :=
  ∀ (i : Instr) (s t : State), isInputEvent i = true → exec i s = .next t →
    t.prf = s.prf ∨
    (∃ q, i = .loadprofile q ∧ t.prf = q) ∨
    (∃ b r, i = .feed b ∧ s.need = 1 ∧ s.ctx.dir = .read ∧
      decodeBlock s.ctx.kind (s.buf ++ [b]) = some r ∧ t.prf = storeRecord s.prf r)

/-- 45_session.md R307 (a), (b), 20_memory.md R72: a step sends at most one frame; when it does, no exchange is
outstanding any more (the block was Idle, or the step feeds the last byte), and afterwards the block is armed for the
whole response to that frame. -/
def Obligations.EverySendArmsForItsResponse : Prop :=
  ∀ s t : State, s.Inv → step s = .next t →
    txHistory t = txHistory s ∨
    ∃ f, txHistory t = txHistory s ++ [f] ∧
      (s.need = 0 ∨ (s.need = 1 ∧ ∃ b rest, s.input = ⟨[0x06#8, b], .none⟩ :: rest)) ∧
      0 < t.need ∧ t.buf = [] ∧ t.need = expectedLen t.ctx ∧ t.conn = true ∧
      f.getD 1 0#8 = Config.blockId t.ctx.kind ∧
      f.getD 0 0#8 = (match t.ctx.dir with
        | .read => 0x11#8
        | .write => 0x16#8)

/-- 20_memory.md R67, R71, 10_state.md R20, R42: no instruction takes back an output, changes the parameters, or takes
an input event. -/
def Obligations.OutputsOnlyGrow : Prop :=
  ∀ (i : Instr) (s t : State), exec i s = .next t →
    (∃ new, t.out = s.out ++ new) ∧ t.params = s.params ∧ t.input = s.input

/-- 10_state.md R33, R34: what sets and clears `conn` and `chain`. -/
def Obligations.WhatChangesConnAndChain : Prop :=
  ∀ (i : Instr) (s t : State), isInputEvent i = true → exec i s = .next t →
    (s.conn = false → t.conn = true → i = .connect) ∧
    (s.conn = true → t.conn = false → i = .close ∨ i = .tfail) ∧
    (s.chain = false → t.chain = true → i = .readall ∨ i = .writeall) ∧
    (s.chain = true → t.chain = false → i = .close ∨ i = .tfail ∨ i = .connect ∨
      ∃ b, i = .feed b ∧ s.need = 1 ∧ s.ctx.kind = .throttle)

/-- 60_exceptions.md R356: an input event raises at most one cause; two only when a failed write advances
(`P_WFAIL_ADVANCE`, `chain`) into a refused WRITE: the outputs are then `E_WRITE_REJECTED` and the event of the failed
write, and after them the cause of `WRITE next(k)`, `W_NO_RECORD` or `W_ENC_RANGE` (`W_NOT_CONNECTED` only in a state
that breaks 10_state.md R36 (d), which no run reaches). -/
def Obligations.AtMostOneCausePerOperation : Prop :=
  ∀ (i : Instr) (s t : State), isInputEvent i = true → exec i s = .next t →
    ∃ new, t.out = s.out ++ new ∧
      ((new.filterMap logOf).length ≤ 1 ∨
       ∃ (b : Byte) (v : Verdict) (k' : Kind) (c : Cause),
        i = .feed b ∧ s.need = 1 ∧ s.ctx.dir = .write ∧ s.params.wfailAdvance = true ∧ s.chain = true ∧
        rctVerdict s.ctx.kind b = some v ∧ v ≠ .success ∧ nextKind s.ctx.kind = some k' ∧
        new = [.log (.eWriteRejected s.ctx.kind b), .ev (.blockWritten s.ctx.kind (some v)), .log c] ∧
        (c = .wNoRecord k' ∨ c = .wEncRange k' ∨ (s.conn = false ∧ c = .wNotConnected)))

/-- 45_session.md R307 (c), R282: READALL followed by the bytes of three responses of the right lengths and ids, with any
contents, gives exactly these outputs and ends Idle with `chain` clear and the three slots filled. -/
def Obligations.ReadAllRunsTheWholeChain : Prop :=
  ∀ (b p h : List Byte) (s : State), s.conn = true → s.need = 0 → s.chain = false → s.params.verifyRx = false →
    b.length = 26 → p.length = 13 → h.length = 8 →
    ∃ rb rp rh, decodeBasic (0x52#8 :: b) = some rb ∧ decodePedal (0x53#8 :: p) = some rp ∧
      decodeThrottle (0x54#8 :: h) = some rh ∧
      core.run 51 { s with input := ⟨[0x03#8], .none⟩ ::
          (rxEvents (0x52#8 :: b) ++ rxEvents (0x53#8 :: p) ++ rxEvents (0x54#8 :: h)) }
        = .next { s with
            prf := { info := s.prf.info, basic := some rb, pedal := some rp, throttle := some rh }
            need := 0, ctx := ⟨.read, .throttle⟩, buf := [], chain := false, input := []
            out := s.out ++ [.tx [0x11#8, 0x52#8], .ev (.blockRead .basic), .tx [0x11#8, 0x53#8],
              .ev (.blockRead .pedalAssist), .tx [0x11#8, 0x54#8], .ev (.blockRead .throttle)] }

/-- 45_session.md R307 (d), R282: the same for WRITEALL with three success acknowledgements, when the three records are
present and encodable; PRF is not changed. -/
def Obligations.WriteAllRunsTheWholeChain : Prop :=
  ∀ (rb : BasicRecord) (rp : PedalRecord) (rh : ThrottleRecord) (pb : List Byte) (s : State),
    s.conn = true → s.need = 0 → s.chain = false →
    s.prf.basic = some rb → encodeBasic rb = some pb → s.prf.pedal = some rp → s.prf.throttle = some rh →
    core.run 7 { s with input := ⟨[0x04#8], .none⟩ ::
        (rxEvents [0x52#8, 0x18#8] ++ rxEvents [0x53#8, 0x0B#8] ++ rxEvents [0x54#8, 0x06#8]) }
      = .next { s with
          need := 0, ctx := ⟨.write, .throttle⟩, buf := [], chain := false, input := []
          out := s.out ++
            [.tx (csuAppend (0x16#8 :: 0x52#8 :: 0x18#8 :: pb)), .ev (.blockWritten .basic none),
             .tx (csuAppend (0x16#8 :: 0x53#8 :: 0x0B#8 :: encodePedal rp)), .ev (.blockWritten .pedalAssist none),
             .tx (csuAppend (0x16#8 :: 0x54#8 :: 0x06#8 :: encodeThrottle rh)),
             .ev (.blockWritten .throttle none)] }
end

