-- ==== Sys2Proof/Laws/Codec.lean ====
section
/-! SUPPORT. What the checksum and codec functions can answer: the sum over lists, the lengths of payloads, and that a
frame of the right length decodes. -/

namespace Sys2Proof.Machine

/-- The sum of a list is the sum of its parts. -/
theorem byteSum_append (a b : List Byte) : byteSum (a ++ b) = byteSum a + byteSum b := by
  simp [byteSum]

/-- The sum of one more byte. -/
theorem byteSum_cons (a : Byte) (b : List Byte) : byteSum (a :: b) = a.toNat + byteSum b := by
  simp [byteSum]

/-- An encodable Basic record has a payload of 24 bytes. -/
theorem encodeBasic_length {r : BasicRecord} {p : List Byte} (h : encodeBasic r = some p) : p.length = 24 := by
  unfold encodeBasic at h
  split at h
  · cases h; simp [encLevels]
  · cases h

/-- A PedalAssist payload has 11 bytes. -/
theorem encodePedal_length (r : PedalRecord) : (encodePedal r).length = 11 := rfl

/-- A Throttle payload has 6 bytes. -/
theorem encodeThrottle_length (r : ThrottleRecord) : (encodeThrottle r).length = 6 := rfl

/-- The payload of a slot has `PLEN[k]` bytes. -/
theorem slotPayload_length {q : Profile} {k : Kind} {p : List Byte} (h : slotPayload q k = .payload p) :
    Config.plen k = some p.length := by
  unfold slotPayload at h
  cases k with
  | general => cases h
  | basic =>
    simp only at h
    split at h
    · cases h
    · split at h
      · cases h
      · rename_i hb; cases h; rw [encodeBasic_length hb]; rfl
  | pedalAssist =>
    simp only at h
    split at h <;> cases h
    rfl
  | throttle =>
    simp only at h
    split at h <;> cases h
    rfl

/-- General has no payload. -/
theorem slotPayload_general (q : Profile) : slotPayload q .general = .isGeneral := rfl

/-- A frame of the kind's length decodes, to a record of the kind. -/
theorem decodeBlock_of_length {k : Kind} {f : List Byte} (h : f.length = Config.len k) :
    ∃ r, decodeBlock k f = some r := by
  cases k <;> simp only [Config.len] at h <;>
    simp [decodeBlock, decodeGeneral, decodeBasic, decodePedal, decodeThrottle, h]

/-- Only a frame of the kind's length decodes. -/
theorem length_of_decodeBlock {k : Kind} {f : List Byte} {r : Record} (h : decodeBlock k f = some r) :
    f.length = Config.len k := by
  cases k <;>
    simp only [decodeBlock, decodeGeneral, decodeBasic, decodePedal, decodeThrottle, Option.map_eq_some_iff] at h <;>
    obtain ⟨_, h, _⟩ := h <;> (split at h <;> [assumption; cases h])

end Sys2Proof.Machine
end

