-- ==== Sys2Proof/Laws/Ops.lean ====
section
/-! SUPPORT. The laws of the buffer and of the profile register file: a read after a write, and what a write leaves
alone; the buffer operations keep the buffer's capacity. -/

namespace Sys2Proof.Machine

/-- The only write the block does is an append. -/
theorem memWrite_at_end (m v : List Byte) : memWrite m m.length v = m ++ v := by
  simp [memWrite]

/-- What was written is read back. -/
theorem memRead_memWrite_same (m v : List Byte) (a : Nat) (h : a ≤ m.length) :
    memRead (memWrite m a v) a v.length = v := by
  simp [memRead, memWrite, List.append_assoc, Nat.min_eq_left h]

/-- A write leaves every byte below it alone. -/
theorem byteAt_memWrite_below (m v : List Byte) (a i : Nat) (hi : i < a) (h : a ≤ m.length) :
    byteAt (memWrite m a v) i = byteAt m i := by
  have hlt : i < (m.take a).length := by simp; omega
  simp [byteAt, memWrite, List.getD, List.getElem?_append_left hlt, List.append_assoc, hi]

/-- A byte appended while there is room keeps the capacity. -/
theorem bufWf_append (m : List Byte) (b : Byte) (h : m.length < Config.bufDepth) :
    bufWf (memWrite m m.length [b]) = true := by
  rw [memWrite_at_end]
  simp [bufWf]
  omega

/-- Every clearing keeps the capacity, and reset has it. -/
theorem bufWf_nil : bufWf [] = true := rfl

/-- The buffer at reset. -/
theorem bufWf_reset : bufWf State.reset.buf = true := rfl

/-- The kind of a record. -/
def recordKind : Record → Kind
  | .general _ => .general
  | .basic _ => .basic
  | .pedal _ => .pedalAssist
  | .throttle _ => .throttle

/-- A slot reads back the record written to it. -/
theorem slotOf_storeRecord_same (p : Profile) (r : Record) : slotOf (storeRecord p r) (recordKind r) = some r := by
  cases r <;> rfl

/-- A slot write leaves the other three slots alone. -/
theorem slotOf_storeRecord_other (p : Profile) (r : Record) (k : Kind) (h : k ≠ recordKind r) :
    slotOf (storeRecord p r) k = slotOf p k := by
  cases r <;> cases k <;> first | rfl | exact absurd rfl h

@[simp] theorem txOf_tx (f : List Byte) : txOf (.tx f) = some f := rfl
@[simp] theorem txOf_ev (e : OutEvent) : txOf (.ev e) = none := rfl
@[simp] theorem txOf_log (c : Cause) : txOf (.log c) = none := rfl
@[simp] theorem evOf_tx (f : List Byte) : evOf (.tx f) = none := rfl
@[simp] theorem evOf_ev (e : OutEvent) : evOf (.ev e) = some e := rfl
@[simp] theorem evOf_log (c : Cause) : evOf (.log c) = none := rfl
@[simp] theorem logOf_tx (f : List Byte) : logOf (.tx f) = none := rfl
@[simp] theorem logOf_ev (e : OutEvent) : logOf (.ev e) = none := rfl
@[simp] theorem logOf_log (c : Cause) : logOf (.log c) = some c := rfl

/-- `tx` after one output. -/
theorem txHistory_pushOut (o : Output) (s : State) : txHistory (pushOut o s) = txHistory s ++ (txOf o).toList := by
  cases h : txOf o <;> simp [txHistory, pushOut, h]

/-- `ev` after one output. -/
theorem evHistory_pushOut (o : Output) (s : State) : evHistory (pushOut o s) = evHistory s ++ (evOf o).toList := by
  cases h : evOf o <;> simp [evHistory, pushOut, h]

/-- `log` after one output. -/
theorem logHistory_pushOut (o : Output) (s : State) : logHistory (pushOut o s) = logHistory s ++ (logOf o).toList := by
  cases h : logOf o <;> simp [logHistory, pushOut, h]

end Sys2Proof.Machine
end

