-- ==== Sys2Proof/Laws/PerInstr.lean ====
section
/-! SUPPORT. The per-instruction families: every well-formed instruction's encoding has the length the spec gives it
(30_encoding.md R90, R121). -/

namespace Sys2Proof.Laws.EncodedLength

/-- The encoding of a well-formed instruction is as long as its format says; an internal operation has neither. -/
def Statement (i : Instr) : Prop := i.wellFormed = true → (encode i).map Encoding.length = i.specLength

/-- A write request with a payload of `PLEN[k]` bytes has four bytes more. -/
theorem wqLength {k : Kind} {p : List Byte} {c : Byte} {n : Nat} (h : wellFormedWq k p c = true)
    (hk : Config.plen k = some n) (a b d : Byte) : ([a, b, d] ++ p ++ [c]).length = n + 4 := by
  unfold wellFormedWq at h
  rw [hk, Bool.and_eq_true, decide_eq_true_eq, Option.some.injEq] at h
  rw [List.length_append, List.length_append, ← h.1, List.length_cons, List.length_cons, List.length_cons,
    List.length_nil, List.length_cons, List.length_nil]
  omega

theorem connect : Statement .connect := fun _ => rfl

theorem close : Statement .close := fun _ => rfl

theorem tfail : Statement .tfail := fun _ => rfl

theorem readall : Statement .readall := fun _ => rfl

theorem writeall : Statement .writeall := fun _ => rfl

theorem loadprofile (q : Profile) : Statement (.loadprofile q) := fun _ => rfl

theorem feed (b : Byte) : Statement (.feed b) := fun _ => rfl

theorem readInfo : Statement .readInfo := fun _ => rfl

theorem readBasic : Statement .readBasic := fun _ => rfl

theorem readPedal : Statement .readPedal := fun _ => rfl

theorem readThrottle : Statement .readThrottle := fun _ => rfl

theorem writeInfo : Statement .writeInfo := fun _ => rfl

theorem writeBasic : Statement .writeBasic := fun _ => rfl

theorem writePedal : Statement .writePedal := fun _ => rfl

theorem writeThrottle : Statement .writeThrottle := fun _ => rfl

theorem csuSum (b : List Byte) : Statement (.csuSum b) := fun _ => rfl

theorem csuAppend (b : List Byte) : Statement (.csuAppend b) := fun _ => rfl

theorem csuVerify (g : List Byte) : Statement (.csuVerify g) := fun _ => rfl

theorem csuRxok (f : List Byte) : Statement (.csuRxok f) := fun _ => rfl

theorem decGeneral (f : List Byte) : Statement (.decGeneral f) := fun _ => rfl

theorem decBasic (f : List Byte) : Statement (.decBasic f) := fun _ => rfl

theorem decPedal (f : List Byte) : Statement (.decPedal f) := fun _ => rfl

theorem decThrottle (f : List Byte) : Statement (.decThrottle f) := fun _ => rfl

theorem encBasic (r : BasicRecord) : Statement (.encBasic r) := fun _ => rfl

theorem encPedal (r : PedalRecord) : Statement (.encPedal r) := fun _ => rfl

theorem encThrottle (r : ThrottleRecord) : Statement (.encThrottle r) := fun _ => rfl

theorem rctBasic (r : Byte) : Statement (.rctBasic r) := fun _ => rfl

theorem rctPedal (r : Byte) : Statement (.rctPedal r) := fun _ => rfl

theorem rctThrottle (r : Byte) : Statement (.rctThrottle r) := fun _ => rfl

theorem fraArm (e : Nat) (c : Ctx) : Statement (.fraArm e c) := fun _ => rfl

theorem fraCancel : Statement .fraCancel := fun _ => rfl

theorem completeRead (f : List Byte) (k : Kind) : Statement (.completeRead f k) := fun _ => rfl

theorem completeWrite (f : List Byte) (k : Kind) : Statement (.completeWrite f k) := fun _ => rfl

theorem rq5General : Statement .rq5General := fun _ => rfl

theorem rq2Basic : Statement .rq2Basic := fun _ => rfl

theorem rq2Pedal : Statement .rq2Pedal := fun _ => rfl

theorem rq2Throttle : Statement .rq2Throttle := fun _ => rfl

theorem wqBasic (p : List Byte) (c : Byte) : Statement (.wqBasic p c) := fun h => congrArg some (wqLength (n := 24) h rfl 0x16#8 0x52#8 0x18#8)

theorem wqPedal (p : List Byte) (c : Byte) : Statement (.wqPedal p c) := fun h => congrArg some (wqLength (n := 11) h rfl 0x16#8 0x53#8 0x0B#8)

theorem wqThrottle (p : List Byte) (c : Byte) : Statement (.wqThrottle p c) := fun h => congrArg some (wqLength (n := 6) h rfl 0x16#8 0x54#8 0x06#8)

theorem rrGeneral (rest : List Byte) : Statement (.rrGeneral rest) := fun h => congrArg some (of_decide_eq_true h)

theorem rrBasic (rest : List Byte) : Statement (.rrBasic rest) := fun h => congrArg some (of_decide_eq_true h)

theorem rrPedal (rest : List Byte) : Statement (.rrPedal rest) := fun h => congrArg some (of_decide_eq_true h)

theorem rrThrottle (rest : List Byte) : Statement (.rrThrottle rest) := fun h => congrArg some (of_decide_eq_true h)

theorem waBasic (r : Byte) : Statement (.waBasic r) := fun _ => rfl

theorem waPedal (r : Byte) : Statement (.waPedal r) := fun _ => rfl

theorem waThrottle (r : Byte) : Statement (.waThrottle r) := fun _ => rfl

end Sys2Proof.Laws.EncodedLength
end

