-- ==== Sys2Proof/Laws/State.lean ====
section
/-! SUPPORT. One lemma per field per named state update, all by rfl. -/

namespace Sys2Proof.Machine

@[simp] theorem pushOut_prf (o : Output) (s : State) : (pushOut o s).prf = s.prf := rfl
@[simp] theorem pushOut_need (o : Output) (s : State) : (pushOut o s).need = s.need := rfl
@[simp] theorem pushOut_ctx (o : Output) (s : State) : (pushOut o s).ctx = s.ctx := rfl
@[simp] theorem pushOut_buf (o : Output) (s : State) : (pushOut o s).buf = s.buf := rfl
@[simp] theorem pushOut_chain (o : Output) (s : State) : (pushOut o s).chain = s.chain := rfl
@[simp] theorem pushOut_conn (o : Output) (s : State) : (pushOut o s).conn = s.conn := rfl
@[simp] theorem pushOut_out (o : Output) (s : State) : (pushOut o s).out = s.out ++ [o] := rfl
@[simp] theorem pushOut_ret (o : Output) (s : State) : (pushOut o s).ret = s.ret := rfl
@[simp] theorem pushOut_input (o : Output) (s : State) : (pushOut o s).input = s.input := rfl
@[simp] theorem pushOut_params (o : Output) (s : State) : (pushOut o s).params = s.params := rfl

@[simp] theorem send_prf (f : List Byte) (s : State) : (send f s).prf = s.prf := rfl
@[simp] theorem send_need (f : List Byte) (s : State) : (send f s).need = s.need := rfl
@[simp] theorem send_ctx (f : List Byte) (s : State) : (send f s).ctx = s.ctx := rfl
@[simp] theorem send_buf (f : List Byte) (s : State) : (send f s).buf = s.buf := rfl
@[simp] theorem send_chain (f : List Byte) (s : State) : (send f s).chain = s.chain := rfl
@[simp] theorem send_conn (f : List Byte) (s : State) : (send f s).conn = s.conn := rfl
@[simp] theorem send_out (f : List Byte) (s : State) : (send f s).out = s.out ++ [.tx f] := rfl
@[simp] theorem send_ret (f : List Byte) (s : State) : (send f s).ret = s.ret := rfl
@[simp] theorem send_input (f : List Byte) (s : State) : (send f s).input = s.input := rfl
@[simp] theorem send_params (f : List Byte) (s : State) : (send f s).params = s.params := rfl

@[simp] theorem emit_prf (e : OutEvent) (s : State) : (emit e s).prf = s.prf := rfl
@[simp] theorem emit_need (e : OutEvent) (s : State) : (emit e s).need = s.need := rfl
@[simp] theorem emit_ctx (e : OutEvent) (s : State) : (emit e s).ctx = s.ctx := rfl
@[simp] theorem emit_buf (e : OutEvent) (s : State) : (emit e s).buf = s.buf := rfl
@[simp] theorem emit_chain (e : OutEvent) (s : State) : (emit e s).chain = s.chain := rfl
@[simp] theorem emit_conn (e : OutEvent) (s : State) : (emit e s).conn = s.conn := rfl
@[simp] theorem emit_out (e : OutEvent) (s : State) : (emit e s).out = s.out ++ [.ev e] := rfl
@[simp] theorem emit_ret (e : OutEvent) (s : State) : (emit e s).ret = s.ret := rfl
@[simp] theorem emit_input (e : OutEvent) (s : State) : (emit e s).input = s.input := rfl
@[simp] theorem emit_params (e : OutEvent) (s : State) : (emit e s).params = s.params := rfl

@[simp] theorem raise_prf (c : Cause) (s : State) : (raise c s).prf = s.prf := rfl
@[simp] theorem raise_need (c : Cause) (s : State) : (raise c s).need = s.need := rfl
@[simp] theorem raise_ctx (c : Cause) (s : State) : (raise c s).ctx = s.ctx := rfl
@[simp] theorem raise_buf (c : Cause) (s : State) : (raise c s).buf = s.buf := rfl
@[simp] theorem raise_chain (c : Cause) (s : State) : (raise c s).chain = s.chain := rfl
@[simp] theorem raise_conn (c : Cause) (s : State) : (raise c s).conn = s.conn := rfl
@[simp] theorem raise_out (c : Cause) (s : State) : (raise c s).out = s.out ++ [.log c] := rfl
@[simp] theorem raise_ret (c : Cause) (s : State) : (raise c s).ret = s.ret := rfl
@[simp] theorem raise_input (c : Cause) (s : State) : (raise c s).input = s.input := rfl
@[simp] theorem raise_params (c : Cause) (s : State) : (raise c s).params = s.params := rfl

@[simp] theorem clearBuf_prf (s : State) : (clearBuf s).prf = s.prf := rfl
@[simp] theorem clearBuf_need (s : State) : (clearBuf s).need = s.need := rfl
@[simp] theorem clearBuf_ctx (s : State) : (clearBuf s).ctx = s.ctx := rfl
@[simp] theorem clearBuf_buf (s : State) : (clearBuf s).buf = [] := rfl
@[simp] theorem clearBuf_chain (s : State) : (clearBuf s).chain = s.chain := rfl
@[simp] theorem clearBuf_conn (s : State) : (clearBuf s).conn = s.conn := rfl
@[simp] theorem clearBuf_out (s : State) : (clearBuf s).out = s.out := rfl
@[simp] theorem clearBuf_ret (s : State) : (clearBuf s).ret = s.ret := rfl
@[simp] theorem clearBuf_input (s : State) : (clearBuf s).input = s.input := rfl
@[simp] theorem clearBuf_params (s : State) : (clearBuf s).params = s.params := rfl

@[simp] theorem installExpectation_prf (e : Nat) (c : Ctx) (s : State) : (installExpectation e c s).prf = s.prf := rfl
@[simp] theorem installExpectation_need (e : Nat) (c : Ctx) (s : State) : (installExpectation e c s).need = e := rfl
@[simp] theorem installExpectation_ctx (e : Nat) (c : Ctx) (s : State) : (installExpectation e c s).ctx = c := rfl
@[simp] theorem installExpectation_buf (e : Nat) (c : Ctx) (s : State) : (installExpectation e c s).buf = [] := rfl
@[simp] theorem installExpectation_chain (e : Nat) (c : Ctx) (s : State) : (installExpectation e c s).chain = s.chain := rfl
@[simp] theorem installExpectation_conn (e : Nat) (c : Ctx) (s : State) : (installExpectation e c s).conn = s.conn := rfl
@[simp] theorem installExpectation_out (e : Nat) (c : Ctx) (s : State) : (installExpectation e c s).out = s.out := rfl
@[simp] theorem installExpectation_ret (e : Nat) (c : Ctx) (s : State) : (installExpectation e c s).ret = s.ret := rfl
@[simp] theorem installExpectation_input (e : Nat) (c : Ctx) (s : State) : (installExpectation e c s).input = s.input := rfl
@[simp] theorem installExpectation_params (e : Nat) (c : Ctx) (s : State) : (installExpectation e c s).params = s.params := rfl

@[simp] theorem disarm_prf (s : State) : (disarm s).prf = s.prf := rfl
@[simp] theorem disarm_need (s : State) : (disarm s).need = 0 := rfl
@[simp] theorem disarm_ctx (s : State) : (disarm s).ctx = s.ctx := rfl
@[simp] theorem disarm_buf (s : State) : (disarm s).buf = [] := rfl
@[simp] theorem disarm_chain (s : State) : (disarm s).chain = s.chain := rfl
@[simp] theorem disarm_conn (s : State) : (disarm s).conn = s.conn := rfl
@[simp] theorem disarm_out (s : State) : (disarm s).out = s.out := rfl
@[simp] theorem disarm_ret (s : State) : (disarm s).ret = s.ret := rfl
@[simp] theorem disarm_input (s : State) : (disarm s).input = s.input := rfl
@[simp] theorem disarm_params (s : State) : (disarm s).params = s.params := rfl

@[simp] theorem setChain_prf (b : Bool) (s : State) : (setChain b s).prf = s.prf := rfl
@[simp] theorem setChain_need (b : Bool) (s : State) : (setChain b s).need = s.need := rfl
@[simp] theorem setChain_ctx (b : Bool) (s : State) : (setChain b s).ctx = s.ctx := rfl
@[simp] theorem setChain_buf (b : Bool) (s : State) : (setChain b s).buf = s.buf := rfl
@[simp] theorem setChain_chain (b : Bool) (s : State) : (setChain b s).chain = b := rfl
@[simp] theorem setChain_conn (b : Bool) (s : State) : (setChain b s).conn = s.conn := rfl
@[simp] theorem setChain_out (b : Bool) (s : State) : (setChain b s).out = s.out := rfl
@[simp] theorem setChain_ret (b : Bool) (s : State) : (setChain b s).ret = s.ret := rfl
@[simp] theorem setChain_input (b : Bool) (s : State) : (setChain b s).input = s.input := rfl
@[simp] theorem setChain_params (b : Bool) (s : State) : (setChain b s).params = s.params := rfl

@[simp] theorem setConn_prf (b : Bool) (s : State) : (setConn b s).prf = s.prf := rfl
@[simp] theorem setConn_need (b : Bool) (s : State) : (setConn b s).need = s.need := rfl
@[simp] theorem setConn_ctx (b : Bool) (s : State) : (setConn b s).ctx = s.ctx := rfl
@[simp] theorem setConn_buf (b : Bool) (s : State) : (setConn b s).buf = s.buf := rfl
@[simp] theorem setConn_chain (b : Bool) (s : State) : (setConn b s).chain = s.chain := rfl
@[simp] theorem setConn_conn (b : Bool) (s : State) : (setConn b s).conn = b := rfl
@[simp] theorem setConn_out (b : Bool) (s : State) : (setConn b s).out = s.out := rfl
@[simp] theorem setConn_ret (b : Bool) (s : State) : (setConn b s).ret = s.ret := rfl
@[simp] theorem setConn_input (b : Bool) (s : State) : (setConn b s).input = s.input := rfl
@[simp] theorem setConn_params (b : Bool) (s : State) : (setConn b s).params = s.params := rfl

@[simp] theorem setRet_prf (r : Result) (s : State) : (setRet r s).prf = s.prf := rfl
@[simp] theorem setRet_need (r : Result) (s : State) : (setRet r s).need = s.need := rfl
@[simp] theorem setRet_ctx (r : Result) (s : State) : (setRet r s).ctx = s.ctx := rfl
@[simp] theorem setRet_buf (r : Result) (s : State) : (setRet r s).buf = s.buf := rfl
@[simp] theorem setRet_chain (r : Result) (s : State) : (setRet r s).chain = s.chain := rfl
@[simp] theorem setRet_conn (r : Result) (s : State) : (setRet r s).conn = s.conn := rfl
@[simp] theorem setRet_out (r : Result) (s : State) : (setRet r s).out = s.out := rfl
@[simp] theorem setRet_ret (r : Result) (s : State) : (setRet r s).ret = some r := rfl
@[simp] theorem setRet_input (r : Result) (s : State) : (setRet r s).input = s.input := rfl
@[simp] theorem setRet_params (r : Result) (s : State) : (setRet r s).params = s.params := rfl

@[simp] theorem setInput_prf (r : List Event) (s : State) : (setInput r s).prf = s.prf := rfl
@[simp] theorem setInput_need (r : List Event) (s : State) : (setInput r s).need = s.need := rfl
@[simp] theorem setInput_ctx (r : List Event) (s : State) : (setInput r s).ctx = s.ctx := rfl
@[simp] theorem setInput_buf (r : List Event) (s : State) : (setInput r s).buf = s.buf := rfl
@[simp] theorem setInput_chain (r : List Event) (s : State) : (setInput r s).chain = s.chain := rfl
@[simp] theorem setInput_conn (r : List Event) (s : State) : (setInput r s).conn = s.conn := rfl
@[simp] theorem setInput_out (r : List Event) (s : State) : (setInput r s).out = s.out := rfl
@[simp] theorem setInput_ret (r : List Event) (s : State) : (setInput r s).ret = s.ret := rfl
@[simp] theorem setInput_input (r : List Event) (s : State) : (setInput r s).input = r := rfl
@[simp] theorem setInput_params (r : List Event) (s : State) : (setInput r s).params = s.params := rfl

@[simp] theorem setProfile_prf (q : Profile) (s : State) : (setProfile q s).prf = q := rfl
@[simp] theorem setProfile_need (q : Profile) (s : State) : (setProfile q s).need = s.need := rfl
@[simp] theorem setProfile_ctx (q : Profile) (s : State) : (setProfile q s).ctx = s.ctx := rfl
@[simp] theorem setProfile_buf (q : Profile) (s : State) : (setProfile q s).buf = s.buf := rfl
@[simp] theorem setProfile_chain (q : Profile) (s : State) : (setProfile q s).chain = s.chain := rfl
@[simp] theorem setProfile_conn (q : Profile) (s : State) : (setProfile q s).conn = s.conn := rfl
@[simp] theorem setProfile_out (q : Profile) (s : State) : (setProfile q s).out = s.out := rfl
@[simp] theorem setProfile_ret (q : Profile) (s : State) : (setProfile q s).ret = s.ret := rfl
@[simp] theorem setProfile_input (q : Profile) (s : State) : (setProfile q s).input = s.input := rfl
@[simp] theorem setProfile_params (q : Profile) (s : State) : (setProfile q s).params = s.params := rfl

@[simp] theorem storeSlot_prf (r : Record) (s : State) : (storeSlot r s).prf = storeRecord s.prf r := rfl
@[simp] theorem storeSlot_need (r : Record) (s : State) : (storeSlot r s).need = s.need := rfl
@[simp] theorem storeSlot_ctx (r : Record) (s : State) : (storeSlot r s).ctx = s.ctx := rfl
@[simp] theorem storeSlot_buf (r : Record) (s : State) : (storeSlot r s).buf = s.buf := rfl
@[simp] theorem storeSlot_chain (r : Record) (s : State) : (storeSlot r s).chain = s.chain := rfl
@[simp] theorem storeSlot_conn (r : Record) (s : State) : (storeSlot r s).conn = s.conn := rfl
@[simp] theorem storeSlot_out (r : Record) (s : State) : (storeSlot r s).out = s.out := rfl
@[simp] theorem storeSlot_ret (r : Record) (s : State) : (storeSlot r s).ret = s.ret := rfl
@[simp] theorem storeSlot_input (r : Record) (s : State) : (storeSlot r s).input = s.input := rfl
@[simp] theorem storeSlot_params (r : Record) (s : State) : (storeSlot r s).params = s.params := rfl

@[simp] theorem acceptByte_prf (b : Byte) (s : State) : (acceptByte b s).prf = s.prf := rfl
@[simp] theorem acceptByte_need (b : Byte) (s : State) : (acceptByte b s).need = s.need - 1 := rfl
@[simp] theorem acceptByte_ctx (b : Byte) (s : State) : (acceptByte b s).ctx = s.ctx := rfl
@[simp] theorem acceptByte_buf (b : Byte) (s : State) : (acceptByte b s).buf = memWrite s.buf s.buf.length [b] := rfl
@[simp] theorem acceptByte_chain (b : Byte) (s : State) : (acceptByte b s).chain = s.chain := rfl
@[simp] theorem acceptByte_conn (b : Byte) (s : State) : (acceptByte b s).conn = s.conn := rfl
@[simp] theorem acceptByte_out (b : Byte) (s : State) : (acceptByte b s).out = s.out := rfl
@[simp] theorem acceptByte_ret (b : Byte) (s : State) : (acceptByte b s).ret = s.ret := rfl
@[simp] theorem acceptByte_input (b : Byte) (s : State) : (acceptByte b s).input = s.input := rfl
@[simp] theorem acceptByte_params (b : Byte) (s : State) : (acceptByte b s).params = s.params := rfl

end Sys2Proof.Machine
end

