-- ==== Sys2Proof/Laws/Seq.lean ====
section
/-! SUPPORT. One lemma per shared operation of the sequencer that says everything it can do; later proofs cite these
instead of unfolding the operations. -/

namespace Sys2Proof.Machine

/-- The guard passes exactly when the block is connected and Idle. -/
theorem guardCause_none_iff (s : State) : guardCause s = none ↔ s.conn = true ∧ s.need = 0 := by
  unfold guardCause
  cases s.conn <;> by_cases h : 0 < s.need <;> simp [h] <;> omega

/-- What the guard refuses for. -/
theorem guardCause_cases (s : State) :
    (s.conn = false ∧ guardCause s = some .wNotConnected) ∨
    (s.conn = true ∧ 0 < s.need ∧ guardCause s = some (.wBusy s.ctx s.need)) ∨
    (s.conn = true ∧ s.need = 0 ∧ guardCause s = none) := by
  unfold guardCause
  cases s.conn <;> by_cases h : 0 < s.need <;> simp [h]
  omega

/-- FRA.ARM with a legal length on a disarmed assembler. -/
theorem fraArm_idle {e : Nat} (c : Ctx) {s : State} (h1 : 1 ≤ e) (h2 : e ≤ 27) (h : s.need = 0) :
    fraArm e c s = installExpectation e c s := by
  have h' : ¬ (e < 1 ∨ Config.bufDepth < e) := by simp only [Config.bufDepth]; omega
  rw [fraArm, if_neg h', if_neg (by omega)]

/-- Everything FRA.ARM can do. -/
theorem fraArm_cases (e : Nat) (c : Ctx) (s : State) :
    ((e < 1 ∨ 27 < e) ∧ fraArm e c s = raise (.wArmLen e) s) ∨
    (1 ≤ e ∧ e ≤ 27 ∧ 0 < s.need ∧
      fraArm e c s = installExpectation e c (raise (.wRearm s.ctx s.buf.length s.need) s)) ∨
    (1 ≤ e ∧ e ≤ 27 ∧ s.need = 0 ∧ fraArm e c s = installExpectation e c s) := by
  by_cases h : e < 1 ∨ Config.bufDepth < e
  · exact .inl ⟨h, if_pos h⟩
  · have h' : ¬ (e < 1 ∨ 27 < e) := h
    by_cases hn : 0 < s.need
    · exact .inr (.inl ⟨by omega, by omega, hn, by rw [fraArm, if_neg h, if_pos hn]⟩)
    · exact .inr (.inr ⟨by omega, by omega, by omega, by rw [fraArm, if_neg h, if_neg hn]⟩)

/-- Every length the sequencer arms with is legal. -/
theorem len_legal (k : Kind) : 1 ≤ Config.len k ∧ Config.len k ≤ 27 := by
  cases k <;> decide

/-- WRITE finds General exactly for General. -/
theorem slotPayload_isGeneral (p : Profile) (k : Kind) : slotPayload p k = .isGeneral ↔ k = .general := by
  refine ⟨fun h => ?_, by rintro rfl; rfl⟩
  unfold slotPayload at h
  split at h
  · rfl
  all_goals (repeat' split at h) <;> cases h

/-- Everything `READ k` can do. -/
theorem requestRead_cases (k : Kind) (s : State) :
    (∃ c, guardCause s = some c ∧ requestRead k s = raise c s) ∨
    (s.conn = true ∧ s.need = 0 ∧
      requestRead k s = installExpectation (Config.len k) ⟨.read, k⟩ (send (readRequest k) s)) := by
  rcases guardCause_cases s with ⟨_, hg⟩ | ⟨_, _, hg⟩ | ⟨hc, hn, hg⟩
  · exact .inl ⟨.wNotConnected, hg, by rw [requestRead, hg]⟩
  · exact .inl ⟨.wBusy s.ctx s.need, hg, by rw [requestRead, hg]⟩
  · refine .inr ⟨hc, hn, ?_⟩
    rw [requestRead, hg]
    exact fraArm_idle _ (len_legal k).1 (len_legal k).2 hn

/-- Everything `WRITE k` can do: which cause refuses it, else the request it sends. -/
theorem requestWrite_cases (k : Kind) (s : State) :
    (∃ c, requestWrite k s = raise c s ∧
      ((s.conn = false ∧ c = .wNotConnected) ∨ (0 < s.need ∧ c = .wBusy s.ctx s.need) ∨
       (k = .general ∧ c = .wGeneralWrite) ∨ (slotPayload s.prf k = .absent ∧ c = .wNoRecord k) ∨
       (slotPayload s.prf k = .encErr ∧ c = .wEncRange k))) ∨
    (∃ p, s.conn = true ∧ s.need = 0 ∧ k ≠ .general ∧ slotPayload s.prf k = .payload p ∧
      requestWrite k s = installExpectation 2 ⟨.write, k⟩ (send (writeRequest k p) s)) := by
  rcases guardCause_cases s with ⟨hc, hg⟩ | ⟨_, hn, hg⟩ | ⟨hc, hn, hg⟩
  · exact .inl ⟨.wNotConnected, by rw [requestWrite, hg], .inl ⟨hc, rfl⟩⟩
  · exact .inl ⟨.wBusy s.ctx s.need, by rw [requestWrite, hg], .inr (.inl ⟨hn, rfl⟩)⟩
  · cases hp : slotPayload s.prf k with
    | isGeneral =>
      have hk := (slotPayload_isGeneral s.prf k).mp hp
      exact .inl ⟨.wGeneralWrite, by simp only [requestWrite, hg, hp], .inr (.inr (.inl ⟨hk, rfl⟩))⟩
    | absent =>
      exact .inl ⟨.wNoRecord k, by simp only [requestWrite, hg, hp], .inr (.inr (.inr (.inl ⟨rfl, rfl⟩)))⟩
    | encErr =>
      exact .inl ⟨.wEncRange k, by simp only [requestWrite, hg, hp], .inr (.inr (.inr (.inr ⟨rfl, rfl⟩)))⟩
    | payload p =>
      refine .inr ⟨p, hc, hn, ?_, rfl, ?_⟩
      · rintro rfl; cases hp
      · simp only [requestWrite, hg, hp]
        exact fraArm_idle _ (by decide) (by decide) hn

/-- Everything a chain step can do. -/
theorem chainStep_cases (request : Kind → State → State) (k : Kind) (s : State) :
    (k = .throttle ∧ chainStep request k s = setChain false s) ∨
    (k ≠ .throttle ∧ s.chain = false ∧ chainStep request k s = s) ∨
    (∃ k', nextKind k = some k' ∧ s.chain = true ∧ chainStep request k s = request k' s) := by
  cases k <;> cases h : s.chain <;> simp [chainStep, nextKind, h]

/-- Everything COMPLETE.READ can do when it gives a next state. -/
theorem completeRead_cases {f : List Byte} {k : Kind} {s t : State} (h : completeRead f k s = .next t) :
    f.length = Config.len k ∧
    ((∃ c, t = raise c s) ∨
     (∃ r, decodeBlock k f = some r ∧ t = chainStep requestRead k (emit (.blockRead k) (storeSlot r s)))) := by
  unfold completeRead at h
  split at h
  · cases h
  · rename_i hl
    have hl : f.length = Config.len k := Decidable.not_not.mp hl
    refine ⟨hl, ?_⟩
    split at h
    · cases h; exact .inl ⟨_, rfl⟩
    · split at h
      · cases h; exact .inl ⟨_, rfl⟩
      · split at h
        · cases h
        · rename_i r hr; cases h; exact .inr ⟨r, hr, rfl⟩

/-- COMPLETE.READ on a frame of the kind's length always gives a next state. -/
theorem completeRead_next {f : List Byte} {k : Kind} (s : State) (h : f.length = Config.len k) :
    ∃ t, completeRead f k s = .next t := by
  obtain ⟨r, hr⟩ := decodeBlock_of_length h
  unfold completeRead
  simp only [h, hr]
  split
  · exact absurd rfl ‹_›
  · split
    · exact ⟨_, rfl⟩
    · split <;> exact ⟨_, rfl⟩

/-- Everything COMPLETE.WRITE can do when it gives a next state. -/
theorem completeWrite_cases {f : List Byte} {k : Kind} {s t : State} (h : completeWrite f k s = .next t) :
    f.length = 2 ∧
    ((byteAt f 0 ≠ Config.blockId k ∧ t = raise (.wUnknownId (byteAt f 0) k) s) ∨
     (k ≠ .general ∧ rctVerdict k (byteAt f 1) = some .success ∧
      t = chainStep requestWrite k (emit (.blockWritten k none) s)) ∨
     (∃ v, k ≠ .general ∧ rctVerdict k (byteAt f 1) = some v ∧ v ≠ .success ∧
      ((s.params.wfailAdvance = false ∧
        t = emit (.blockWritten k (some v)) (raise (.eWriteRejected k (byteAt f 1)) s)) ∨
       (s.params.wfailAdvance = true ∧
        t = chainStep requestWrite k
          (emit (.blockWritten k (some v)) (raise (.eWriteRejected k (byteAt f 1)) s)))))) := by
  unfold completeWrite at h
  split at h
  · cases h
  · rename_i hl
    refine ⟨Decidable.not_not.mp hl, ?_⟩
    split at h
    · rename_i h0; cases h; exact .inl ⟨h0, rfl⟩
    · have hk : ∀ v, rctVerdict k (byteAt f 1) = some v → k ≠ .general := by
        rintro v hv rfl; cases hv
      split at h
      · cases h
      · rename_i hv; cases h; exact .inr (.inl ⟨hk _ hv, hv, rfl⟩)
      · rename_i v hn hv
        cases h
        refine .inr (.inr ⟨v, hk _ hv, hv, hn, ?_⟩)
        cases hw : s.params.wfailAdvance
        · exact .inl ⟨rfl, by simp⟩
        · exact .inr ⟨rfl, by simp⟩

/-- COMPLETE.WRITE on a two-byte frame for another kind than General always gives a next state. -/
theorem completeWrite_next {f : List Byte} {k : Kind} (s : State) (h : f.length = 2) (hk : k ≠ .general) :
    ∃ t, completeWrite f k s = .next t := by
  unfold completeWrite
  split
  · exact absurd h ‹_›
  · split
    · exact ⟨_, rfl⟩
    · cases hv : rctVerdict k (byteAt f 1) with
      | none => cases k <;> first | exact absurd rfl hk | cases hv
      | some v => cases v <;> exact ⟨_, rfl⟩

/-- COMPLETE.READ on a frame that passes both tests. -/
theorem completeRead_accepted {f : List Byte} {k : Kind} {s : State} {r : Record} (hr : decodeBlock k f = some r)
    (hv : s.params.verifyRx = true → csuRxok s.params.rxSumFrom f = true) (h0 : byteAt f 0 = Config.blockId k) :
    completeRead f k s = .next (chainStep requestRead k (emit (.blockRead k) (storeSlot r s))) := by
  have hl := length_of_decodeBlock hr
  have h : ¬ (s.params.verifyRx = true ∧ csuRxok s.params.rxSumFrom f = false) := by
    rintro ⟨a, b⟩; rw [hv a] at b; cases b
  unfold completeRead
  rw [if_neg (not_not.mpr hl), if_neg h, if_neg (not_not.mpr h0), hr]

/-- COMPLETE.WRITE on an acknowledgement with the success code. -/
theorem completeWrite_success {f : List Byte} {k : Kind} (s : State) (hl : f.length = Config.ackLen)
    (h0 : byteAt f 0 = Config.blockId k) (hv : rctVerdict k (byteAt f 1) = some .success) :
    completeWrite f k s = .next (chainStep requestWrite k (emit (.blockWritten k none) s)) := by
  unfold completeWrite
  rw [if_neg (not_not.mpr hl), if_neg (not_not.mpr h0), hv]

/-- COMPLETE.WRITE on an acknowledgement with any other code. -/
theorem completeWrite_failure {f : List Byte} {k : Kind} {v : Verdict} (s : State) (hl : f.length = Config.ackLen)
    (h0 : byteAt f 0 = Config.blockId k) (hv : rctVerdict k (byteAt f 1) = some v) (hn : v ≠ .success) :
    completeWrite f k s = .next (
      let t := emit (.blockWritten k (some v)) (raise (.eWriteRejected k (byteAt f 1)) s)
      if s.params.wfailAdvance then chainStep requestWrite k t else t) := by
  unfold completeWrite
  rw [if_neg (not_not.mpr hl), if_neg (not_not.mpr h0), hv]
  cases v with
  | success => exact absurd rfl hn
  | fieldError _ _ => rfl
  | unknownCode _ => rfl

/-- Everything FEED does, by `need`. -/
theorem feedByte_cases (b : Byte) (s : State) :
    (s.need = 0 ∧ feedByte b s = .next (raise (.wStray b) s)) ∨
    (1 < s.need ∧ feedByte b s = .next (acceptByte b s)) ∨
    (s.need = 1 ∧ feedByte b s = complete s.ctx (s.buf ++ [b]) { s with need := 0, buf := [] }) := by
  rcases Nat.lt_trichotomy s.need 1 with h | h | h
  · exact .inl ⟨by omega, by simp [feedByte, show s.need = 0 by omega]⟩
  · refine .inr (.inr ⟨h, ?_⟩)
    simp [feedByte, acceptByte, clearBuf, memWrite_at_end, h]
  · refine .inr (.inl ⟨h, ?_⟩)
    have h0 : ¬ s.need = 0 := by omega
    have h1 : ¬ s.need - 1 = 0 := by omega
    simp [feedByte, acceptByte, h0, h1]

/-- Feeding a list in two parts. -/
theorem feedBytes_append (a b : List Byte) (s t : State) (h : feedBytes a s = .next t) :
    feedBytes (a ++ b) s = feedBytes b t := by
  induction a generalizing s with
  | nil => cases h; rfl
  | cons x a ih =>
    simp only [List.cons_append, feedBytes] at h ⊢
    cases hx : feedByte x s with
    | next u => rw [hx] at h; exact ih u h
    | fault r => rw [hx] at h; cases h
    | refused r => rw [hx] at h; cases h

/-- Everything CONNECT can do. -/
theorem connect_cases (s : State) :
    (s.conn = true ∧ connect s = raise .wAlreadyConnected s) ∨
    (s.conn = false ∧ connect s = installExpectation 19 ⟨.read, .general⟩ (send (readRequest .general)
      (emit (.transportState true) (setChain false (disarm (setConn true s)))))) := by
  cases h : s.conn
  · refine .inr ⟨rfl, ?_⟩
    simp only [connect, h]
    rcases requestRead_cases .general
      (emit (.transportState true) (setChain false (fraCancel (setConn true s)))) with ⟨c, hg, _⟩ | ⟨_, _, hr⟩
    · exact absurd hg (by simp [guardCause, fraCancel])
    · exact hr
  · exact .inl ⟨rfl, by simp [connect, h]⟩

/-- Everything CLOSE can do. -/
theorem close_cases (s : State) :
    (s.conn = false ∧ close s = s) ∨
    (s.conn = true ∧ close s = emit (.transportState false) (setConn false (setChain false (disarm s)))) := by
  cases h : s.conn
  · exact .inl ⟨rfl, by simp [close, h]⟩
  · exact .inr ⟨rfl, by simp [close, h, fraCancel]⟩

/-! ### The pending events play no part in an operation -/

/-- Apply a change to the next state of an outcome. -/
def mapNext (g : State → State) : Host.Outcome State Fault Refusal → Host.Outcome State Fault Refusal
  | .next t => .next (g t)
  | .fault r => .fault r
  | .refused r => .refused r

/-- FRA.ARM does not look at the pending events. -/
theorem fraArm_setInput (e : Nat) (c : Ctx) (r : List Event) (s : State) :
    fraArm e c (setInput r s) = setInput r (fraArm e c s) := by
  by_cases h : e < 1 ∨ Config.bufDepth < e
  · rw [fraArm, if_pos h, fraArm, if_pos h]; rfl
  · by_cases hn : 0 < s.need
    · rw [fraArm, if_neg h, if_pos (show 0 < (setInput r s).need from hn), fraArm, if_neg h, if_pos hn]; rfl
    · rw [fraArm, if_neg h, if_neg (show ¬ 0 < (setInput r s).need from hn), fraArm, if_neg h, if_neg hn]; rfl

/-- `READ k` does not look at the pending events. -/
theorem requestRead_setInput (k : Kind) (r : List Event) (s : State) :
    requestRead k (setInput r s) = setInput r (requestRead k s) := by
  unfold requestRead
  rw [show guardCause (setInput r s) = guardCause s from rfl]
  split
  · rfl
  · exact fraArm_setInput _ _ r (send (readRequest k) s)

/-- `WRITE k` does not look at the pending events. -/
theorem requestWrite_setInput (k : Kind) (r : List Event) (s : State) :
    requestWrite k (setInput r s) = setInput r (requestWrite k s) := by
  unfold requestWrite
  rw [show guardCause (setInput r s) = guardCause s from rfl, setInput_prf]
  split
  · rfl
  · split
    · rfl
    · rfl
    · rfl
    · exact fraArm_setInput _ _ r (send (writeRequest k _) s)

/-- A chain step does not look at the pending events when its request does not. -/
theorem chainStep_setInput {request : Kind → State → State} (r : List Event)
    (h : ∀ k s, request k (setInput r s) = setInput r (request k s)) (k : Kind) (s : State) :
    chainStep request k (setInput r s) = setInput r (chainStep request k s) := by
  unfold chainStep
  rw [setInput_chain]
  split
  · rfl
  · split
    · exact h _ s
    · rfl

/-- COMPLETE.READ does not look at the pending events. -/
theorem completeRead_setInput (f : List Byte) (k : Kind) (r : List Event) (s : State) :
    completeRead f k (setInput r s) = mapNext (setInput r) (completeRead f k s) := by
  unfold completeRead
  rw [setInput_params]
  split
  · rfl
  · split
    · rfl
    · split
      · rfl
      · split
        · rfl
        · exact congrArg Host.Outcome.next
            (chainStep_setInput r (fun k s => requestRead_setInput k r s) k (emit (.blockRead k) (storeSlot _ s)))

/-- COMPLETE.WRITE does not look at the pending events. -/
theorem completeWrite_setInput (f : List Byte) (k : Kind) (r : List Event) (s : State) :
    completeWrite f k (setInput r s) = mapNext (setInput r) (completeWrite f k s) := by
  have hc := chainStep_setInput r (fun k s => requestWrite_setInput k r s) k
  unfold completeWrite
  rw [setInput_params]
  split
  · rfl
  · split
    · rfl
    · split
      · rfl
      · exact congrArg Host.Outcome.next (hc (emit (.blockWritten k none) s))
      · cases s.params.wfailAdvance
        · rfl
        · exact congrArg Host.Outcome.next
            (hc (emit (.blockWritten k (some _)) (raise (.eWriteRejected k (byteAt f 1)) s)))

/-- FEED does not look at the pending events. -/
theorem feedByte_setInput (b : Byte) (r : List Event) (s : State) :
    feedByte b (setInput r s) = mapNext (setInput r) (feedByte b s) := by
  rcases feedByte_cases b s with ⟨h, e⟩ | ⟨h, e⟩ | ⟨h, e⟩ <;>
    rcases feedByte_cases b (setInput r s) with ⟨h', e'⟩ | ⟨h', e'⟩ | ⟨h', e'⟩ <;>
    simp only [setInput_need] at h' <;> first | omega | rw [e, e']
  · rfl
  · rfl
  · show complete s.ctx (s.buf ++ [b]) (setInput r { s with need := 0, buf := [] }) = _
    unfold complete
    cases s.ctx.dir
    · exact completeRead_setInput _ _ r _
    · exact completeWrite_setInput _ _ r _

end Sys2Proof.Machine
end

