-- ==== Sys2Proof/Laws/Step.lean ====
section
/-! SUPPORT. Everything a step can do. -/

namespace Sys2Proof.Machine

/-- A step that gives a next state: no event, an instruction, or a reserved command word. -/
theorem step_cases {s t : State} (h : step s = .next t) :
    (s.input = [] ∧ t = s) ∨
    (∃ e rest i, s.input = e :: rest ∧ decodeEvent e = .ok i ∧ exec i (setInput rest s) = .next t) ∨
    (∃ e rest c, s.input = e :: rest ∧ decodeEvent e = .error (.reservedWord c) ∧ t = setInput rest s) := by
  unfold step at h
  split at h
  · rename_i hi; cases h; exact .inl ⟨hi, rfl⟩
  · rename_i e rest hi
    split at h
    · rename_i i hd; exact .inr (.inl ⟨e, rest, i, hi, hd, h⟩)
    · rename_i c hd; cases h; exact .inr (.inr ⟨e, rest, c, hi, hd, rfl⟩)
    · cases h

/-- The step that handles a FEED event. -/
theorem step_feed {b : Byte} {rest : List Event} {s : State} (h : s.input = ⟨[0x06#8, b], .none⟩ :: rest) :
    step s = feedByte b (setInput rest s) := by
  have hd : decodeEvent ⟨[0x06#8, b], .none⟩ = .ok (.feed b) := rfl
  simp only [step, h, hd]
  rfl

/-- A run of any machine whose first step gives a next state goes on from it. -/
theorem run_succ_of_next {M : Host.Core} {n : Nat} {s t : M.State} (h : M.step s = .next t) :
    M.run (n + 1) s = M.run n t := by
  simp only [Host.Core.run, h]

/-- The same of the block. -/
theorem run_succ_next {n : Nat} {s t : State} (h : step s = .next t) : core.run (n + 1) s = core.run n t :=
  run_succ_of_next (M := core) h

end Sys2Proof.Machine
end

