-- ==== Sys2Proof/Tests/Slice0.lean ====
section
/-! SUPPORT. Tests of the model: ill-formed terms, the words of every instruction written out from 30_encoding.md R91
to R95 and R121, the vectors V of 95_test_vectors.md as single steps, and a witness for the hypotheses of every
statement. Every expected value is the spec's. -/

namespace Sys2Proof.Tests

open Sys2Proof Sys2Proof.Machine

/-! ### The data of 95_test_vectors.md -/

/-- `GEN`, the source's example frame (V1.3). -/
def gen : List Byte :=
  [0x51#8, 0x10#8, 0x48#8, 0x5A#8, 0x58#8, 0x54#8, 0x53#8, 0x5A#8, 0x5A#8, 0x36#8, 0x32#8, 0x32#8, 0x32#8, 0x30#8,
    0x31#8, 0x31#8, 0x01#8, 0x14#8, 0x1B#8]

/-- `GEN` with another last byte (V2.13, V2.14). -/
def genEnding (c : Byte) : List Byte := gen.take 18 ++ [c]

/-- The payload V2.41 gives for `B0`. -/
def basPayload : List Byte :=
  [0x29#8, 0x12#8, 0x00#8, 0x0B#8, 0x16#8, 0x21#8, 0x2C#8, 0x37#8, 0x42#8, 0x4D#8, 0x58#8, 0x64#8, 0x00#8, 0x2C#8,
    0x33#8, 0x3A#8, 0x41#8, 0x48#8, 0x4F#8, 0x56#8, 0x5D#8, 0x64#8, 0x34#8, 0xC1#8]

/-- The payload V2.44 gives for `Q0`. -/
def pedPayload : List Byte :=
  [0x02#8, 0xFF#8, 0xFF#8, 0x0A#8, 0x04#8, 0x04#8, 0xFF#8, 0x19#8, 0x08#8, 0x00#8, 0x14#8]

/-- The payload V2.47 gives for `T0`. -/
def thrPayload : List Byte := [0x0B#8, 0x23#8, 0x00#8, 0xFF#8, 0xFF#8, 0x0A#8]

/-- `BAS`. -/
def bas : List Byte := [0x52#8, 0x18#8] ++ basPayload ++ [0xEE#8]

/-- `PED`. -/
def ped : List Byte := [0x53#8, 0x0B#8] ++ pedPayload ++ [0xEE#8]

/-- `THR`. -/
def thr : List Byte := [0x54#8, 0x06#8] ++ thrPayload ++ [0xEE#8]

/-- `G0`. -/
def g0 : GeneralRecord :=
  { manufacturer := ⟨0x48#8, 0x5A#8, 0x58#8, 0x54#8⟩, model := ⟨0x53#8, 0x5A#8, 0x5A#8, 0x36#8⟩,
    hwVer := ⟨0x32#8, 0x32#8⟩, fwVer := ⟨0x32#8, 0x30#8, 0x31#8, 0x31#8⟩, voltage := .v36, maxCurrent := 20#8 }

/-- `B0`. -/
def b0 : BasicRecord :=
  { lowBatteryProtect := 41#8, currentLimit := 18#8,
    assistCurrent := ⟨0#8, 11#8, 22#8, 33#8, 44#8, 55#8, 66#8, 77#8, 88#8, 100#8⟩,
    assistSpeed := ⟨0#8, 44#8, 51#8, 58#8, 65#8, 72#8, 79#8, 86#8, 93#8, 100#8⟩,
    wheelSize := .inches 26#8, speedmeterModel := .label .motorphase, speedmeterSignals := 1#8 }

/-- `B0` with the largest wheel and the most signals that can be encoded (R104, R105). -/
def b0Max : BasicRecord := { b0 with wheelSize := .inches 127#8, speedmeterSignals := 63#8 }

/-- `B0` with the smallest wheel that cannot be encoded (V2.77). -/
def b0Wide : BasicRecord := { b0 with wheelSize := .inches 128#8 }

/-- `Q0`. -/
def q0 : PedalRecord :=
  { pedalType := .label .bbSensor32, designatedAssist := .display, speedLimit := .display, startCurrent := 10#8,
    slowStartMode := 4#8, startupDegree := 4#8, workMode := .undetermined, timeOfStop := 25#8, currentDecay := 8#8,
    stopDecay := 0#8, keepCurrent := 20#8 }

/-- `T0`. -/
def t0 : ThrottleRecord :=
  { startVoltage := 11#8, endVoltage := 35#8, mode := .label .speed, designatedAssist := .display,
    speedLimit := .display, startCurrent := 10#8 }

/-- `PR0`. -/
def pr0 : Profile := { info := none, basic := some b0, pedal := some q0, throttle := some t0 }

/-- Connected and Idle with a profile. -/
def idle (p : Profile) : State := { State.reset with prf := p, conn := true }

/-- Connected and armed, with the bytes received so far. -/
def armed (need : Nat) (dir : Dir) (k : Kind) (buf : List Byte) : State :=
  { idle pr0 with need := need, ctx := ⟨dir, k⟩, buf := buf }

/-! ### Ill-formed terms are refused -/

theorem test_wf_rxok_of_one_byte : (Instr.csuRxok [0x00#8]).wellFormed = false := by decide
theorem test_wf_completeRead_length : (Instr.completeRead thr .basic).wellFormed = false := by decide
theorem test_wf_completeWrite_length : (Instr.completeWrite [0x52#8] .basic).wellFormed = false := by decide
theorem test_wf_completeWrite_general : (Instr.completeWrite [0x51#8, 0x00#8] .general).wellFormed = false := by decide
theorem test_wf_wq_payload_length : (Instr.wqThrottle [0x0B#8] 0x60#8).wellFormed = false := by decide
theorem test_wf_wq_checksum : (Instr.wqThrottle thrPayload 0x91#8).wellFormed = false := by decide
theorem test_wf_wq_accepted : (Instr.wqThrottle thrPayload 0x90#8).wellFormed = true := by decide
theorem test_wf_rr_length : (Instr.rrPedal thr).wellFormed = false := by decide
theorem test_wf_rr_accepted : (Instr.rrPedal (ped.drop 1)).wellFormed = true := by decide

/-! ### The word of every instruction, from R121 and R91 to R95 -/

theorem test_decode_connect : decodeEvent ⟨[0x00#8], .none⟩ = .ok .connect := rfl
theorem test_decode_close : decodeEvent ⟨[0x01#8], .none⟩ = .ok .close := rfl
theorem test_decode_tfail : decodeEvent ⟨[0x02#8], .none⟩ = .ok .tfail := rfl
theorem test_decode_readall : decodeEvent ⟨[0x03#8], .none⟩ = .ok .readall := rfl
theorem test_decode_writeall : decodeEvent ⟨[0x04#8], .none⟩ = .ok .writeall := rfl
theorem test_decode_loadprofile : decodeEvent ⟨[0x05#8], .profile pr0⟩ = .ok (.loadprofile pr0) := rfl
theorem test_decode_feed : decodeEvent ⟨[0x06#8, 0xAA#8], .none⟩ = .ok (.feed 0xAA#8) := rfl
theorem test_decode_readInfo : decodeEvent ⟨[0x10#8], .none⟩ = .ok .readInfo := rfl
theorem test_decode_readBasic : decodeEvent ⟨[0x11#8], .none⟩ = .ok .readBasic := rfl
theorem test_decode_readPedal : decodeEvent ⟨[0x12#8], .none⟩ = .ok .readPedal := rfl
theorem test_decode_readThrottle : decodeEvent ⟨[0x13#8], .none⟩ = .ok .readThrottle := rfl
theorem test_decode_writeInfo : decodeEvent ⟨[0x20#8], .none⟩ = .ok .writeInfo := rfl
theorem test_decode_writeBasic : decodeEvent ⟨[0x21#8], .none⟩ = .ok .writeBasic := rfl
theorem test_decode_writePedal : decodeEvent ⟨[0x22#8], .none⟩ = .ok .writePedal := rfl
theorem test_decode_writeThrottle : decodeEvent ⟨[0x23#8], .none⟩ = .ok .writeThrottle := rfl
theorem test_decode_csuSum : decodeEvent ⟨[0x30#8, 0x11#8, 0x52#8], .none⟩ = .ok (.csuSum [0x11#8, 0x52#8]) := rfl
theorem test_decode_csuAppend : decodeEvent ⟨[0x31#8, 0x11#8], .none⟩ = .ok (.csuAppend [0x11#8]) := rfl
theorem test_decode_csuVerify : decodeEvent ⟨[0x32#8], .none⟩ = .ok (.csuVerify []) := rfl
theorem test_decode_csuRxok : decodeEvent ⟨[0x33#8, 0x07#8, 0x00#8], .none⟩ = .ok (.csuRxok [0x07#8, 0x00#8]) := rfl
theorem test_decode_decGeneral : decodeEvent ⟨0x50#8 :: gen, .none⟩ = .ok (.decGeneral gen) := rfl
theorem test_decode_decBasic : decodeEvent ⟨0x51#8 :: bas, .none⟩ = .ok (.decBasic bas) := rfl
theorem test_decode_decPedal : decodeEvent ⟨0x52#8 :: ped, .none⟩ = .ok (.decPedal ped) := rfl
theorem test_decode_decThrottle : decodeEvent ⟨0x53#8 :: thr, .none⟩ = .ok (.decThrottle thr) := rfl
theorem test_decode_encBasic : decodeEvent ⟨[0x61#8], .basic b0⟩ = .ok (.encBasic b0) := rfl
theorem test_decode_encPedal : decodeEvent ⟨[0x62#8], .pedal q0⟩ = .ok (.encPedal q0) := rfl
theorem test_decode_encThrottle : decodeEvent ⟨[0x63#8], .throttle t0⟩ = .ok (.encThrottle t0) := rfl
theorem test_decode_rctBasic : decodeEvent ⟨[0x71#8, 0x05#8], .none⟩ = .ok (.rctBasic 5#8) := rfl
theorem test_decode_rctPedal : decodeEvent ⟨[0x72#8, 0x03#8], .none⟩ = .ok (.rctPedal 3#8) := rfl
theorem test_decode_rctThrottle : decodeEvent ⟨[0x73#8, 0x02#8], .none⟩ = .ok (.rctThrottle 2#8) := rfl

theorem test_decode_rq5General : decodeFrame [0x11#8, 0x51#8, 0x04#8, 0xB0#8, 0x05#8] = .ok .rq5General := rfl
theorem test_decode_rq2Basic : decodeFrame [0x11#8, 0x52#8] = .ok .rq2Basic := rfl
theorem test_decode_rq2Pedal : decodeFrame [0x11#8, 0x53#8] = .ok .rq2Pedal := rfl
theorem test_decode_rq2Throttle : decodeFrame [0x11#8, 0x54#8] = .ok .rq2Throttle := rfl
/-- The frame of V2.72. -/
theorem test_decode_wqBasic :
    decodeFrame ([0x16#8, 0x52#8, 0x18#8] ++ basPayload ++ [0x12#8]) = .ok (.wqBasic basPayload 0x12#8) := rfl
/-- The frame of V2.73. -/
theorem test_decode_wqPedal :
    decodeFrame ([0x16#8, 0x53#8, 0x0B#8] ++ pedPayload ++ [0xA4#8]) = .ok (.wqPedal pedPayload 0xA4#8) := rfl
/-- The frame of V2.74. -/
theorem test_decode_wqThrottle :
    decodeFrame ([0x16#8, 0x54#8, 0x06#8] ++ thrPayload ++ [0x90#8]) = .ok (.wqThrottle thrPayload 0x90#8) := rfl
theorem test_decode_rrGeneral : decodeFrame gen = .ok (.rrGeneral (gen.drop 1)) := rfl
theorem test_decode_rrBasic : decodeFrame bas = .ok (.rrBasic (bas.drop 1)) := rfl
theorem test_decode_rrPedal : decodeFrame ped = .ok (.rrPedal (ped.drop 1)) := rfl
theorem test_decode_rrThrottle : decodeFrame thr = .ok (.rrThrottle (thr.drop 1)) := rfl
theorem test_decode_waBasic : decodeFrame [0x52#8, 0x18#8] = .ok (.waBasic 0x18#8) := rfl
theorem test_decode_waPedal : decodeFrame [0x53#8, 0x0B#8] = .ok (.waPedal 0x0B#8) := rfl
theorem test_decode_waThrottle : decodeFrame [0x54#8, 0x06#8] = .ok (.waThrottle 0x06#8) := rfl

/-- The four internal operations have no command word (R121). -/
theorem test_internal_not_encoded :
    encode (.fraArm 19 ⟨.read, .general⟩) = none ∧ encode .fraCancel = none ∧
    encode (.completeRead thr .throttle) = none ∧ encode (.completeWrite [0x52#8, 0x18#8] .basic) = none := by decide

/-- Reserved words at the edges of the table's ranges (R121). -/
theorem test_decode_reserved :
    decodeEvent ⟨[0x07#8], .none⟩ = .error (.reservedWord 0x07#8) ∧
    decodeEvent ⟨[0x60#8], .none⟩ = .error (.reservedWord 0x60#8) ∧
    decodeEvent ⟨[0x74#8], .none⟩ = .error (.reservedWord 0x74#8) ∧
    decodeEvent ⟨[0xFF#8], .none⟩ = .error (.reservedWord 0xFF#8) := ⟨rfl, rfl, rfl, rfl⟩

/-- The block never emits a write request for General (R112), and there is no acknowledgement of it (R261). -/
theorem test_decode_no_general_write :
    decodeFrame [0x16#8, 0x51#8, 0x00#8, 0x51#8] = .error .notAWriteRequest ∧
    decodeFrame [0x51#8, 0x00#8] = .error (.notAResponse 0x51#8) := ⟨rfl, rfl⟩

theorem test_decode_unknown_id : decodeFrame [0x41#8, 0x00#8] = .error (.unknownFirstByte 0x41#8) := rfl

/-- Words of the opcode table. -/
theorem test_table_words :
    decodeTableWord 8 0x13 = some .readThrottle ∧ decodeTableWord 8 0x05 = some (.loadprofile Profile.empty) ∧
    decodeTableWord 40 0x05B0045111 = some .rq5General ∧ decodeTableWord 16 0x1852 = some (.waBasic 0x18#8) ∧
    decodeTableWord 8 0x60 = none := by decide

/-- A table word put before the machine is run by the next step. -/
theorem test_withFetchWord_connect : step (State.reset.withFetchWord 8 0x00) = exec .connect State.reset := rfl
theorem test_withFetchWord_rct :
    step (State.reset.withFetchWord 8 0x72) = exec (.rctPedal 0#8) State.reset := rfl

/-- A reserved word is dropped, and an event that is none is refused by name. -/
theorem test_step_reserved : step { State.reset with input := [⟨[0x70#8], .none⟩] } = .next State.reset := rfl
theorem test_step_malformed :
    step { State.reset with input := [⟨[0x06#8], .none⟩] }
      = .refused (.malformedEvent (.operandMismatch 0x06#8)) := rfl

/-! ### CSU (V2.1 to V2.15) -/

theorem test_sum_wraps : csuSum [0x16#8, 0xFF#8, 0xFF#8, 0x03#8] = 0x01#8 := by decide
theorem test_sum_general_request : csuSum [0x11#8, 0x51#8, 0x04#8, 0xB0#8] = 0x05#8 := by decide
theorem test_append_throttle_frame :
    csuAppend ([0x16#8, 0x54#8, 0x06#8] ++ thrPayload) = [0x16#8, 0x54#8, 0x06#8] ++ thrPayload ++ [0x90#8] := by decide
theorem test_verify_corners :
    csuVerify [] = false ∧ csuVerify [0x00#8] = true ∧ csuVerify [0x05#8] = false ∧
    csuVerify [0x07#8, 0x00#8] = true ∧ csuVerify [0x07#8, 0x01#8] = false := by decide
theorem test_verify_ignores_first_byte :
    csuVerify [0x99#8, 0x51#8, 0x04#8, 0xB0#8, 0x05#8] = true ∧
    csuVerify [0x11#8, 0x51#8, 0x04#8, 0xB0#8, 0x06#8] = false := by decide
theorem test_rxok_of_gen :
    csuRxok .one (genEnding 0xD8#8) = true ∧ csuRxok .zero (genEnding 0x29#8) = true ∧
    csuRxok .one gen = false ∧ csuRxok .zero gen = false := by decide

/-! ### BCD (V2.16 to V2.48) -/

theorem test_decode_wheel :
    [0x00#8, 0x01#8, 0x02#8, 0x36#8, 0x37#8, 0x38#8, 0xFE#8, 0xFF#8].map decWheel =
      [.inches 0#8, .inches 1#8, .inches 1#8, .inches 27#8, .w700C, .inches 28#8, .inches 127#8, .inches 128#8] := by
  decide
theorem test_encode_wheel :
    encWheel (.inches 127#8) = some 0xFE#8 ∧ encWheel .w700C = some 0x37#8 ∧ encWheel (.inches 128#8) = none := by
  decide
theorem test_encode_speed_byte :
    encSpeedByte (.label .motorphase) 1#8 = some 0xC1#8 ∧ encSpeedByte (.label .internal) 12#8 = some 0x4C#8 ∧
    encSpeedByte .invalidLabel 5#8 = some 0x05#8 ∧ encSpeedByte (.label .external) 64#8 = none ∧
    encSpeedByte (.num 2#8) 1#8 = none := by decide
theorem test_decode_enums :
    decEnum pedalTypeOfWire 3#8 = .label .doubleSignal24 ∧ decEnum pedalTypeOfWire 4#8 = .num 4#8 ∧
    decEnum throttleModeOfWire 1#8 = .label .current ∧ decEnum throttleModeOfWire 2#8 = .num 2#8 := by decide
theorem test_decode_volt : [0x04#8, 0x05#8, 0xFF#8].map decVolt = [.v24to48, .v24to60, .v24to60] := by decide
theorem test_decGeneral_gen : decodeGeneral gen = some g0 := by decide
theorem test_decBasic_bas : decodeBasic bas = some b0 := by decide
theorem test_decPedal_ped : decodePedal ped = some q0 := by decide
theorem test_decThrottle_thr : decodeThrottle thr = some t0 := by decide
theorem test_decThrottle_length : decodeThrottle (thr.take 8) = none := by decide
theorem test_encBasic_b0 : encodeBasic b0 = some basPayload := by decide
theorem test_encPedal_q0 : encodePedal q0 = pedPayload := by decide
theorem test_encPedal_invalid_label : encodePedal { q0 with pedalType := .invalidLabel } = 0x00#8 :: pedPayload.drop 1 := by
  decide
theorem test_encThrottle_t0 : encodeThrottle t0 = thrPayload := by decide
/-- 10_state.md R29. -/
theorem test_render_fw_ver : renderDotted (text4Bytes g0.fwVer)
    = [0x32#8, 0x2E#8, 0x30#8, 0x2E#8, 0x31#8, 0x2E#8, 0x31#8] := by decide

/-! ### RCT (V2.50 to V2.56) -/

theorem test_rctBasic_codes :
    [0#8, 4#8, 5#8, 21#8, 23#8, 24#8, 25#8].map rctBasic =
      [.fieldError .basic .lowBatteryProtect, .fieldError .basic (.assistCurrent 1), .fieldError .basic (.assistSpeed 1),
       .fieldError .basic (.assistSpeed 9), .fieldError .basic .speedmeterSignals, .success, .unknownCode 25#8] := by
  decide
theorem test_rctPedal_codes :
    [3#8, 10#8, 11#8, 12#8].map rctPedal =
      [.fieldError .pedalAssist .startCurrent, .fieldError .pedalAssist .keepCurrent, .success,
       .unknownCode 12#8] := by decide
theorem test_rctThrottle_codes :
    [2#8, 5#8, 6#8, 24#8].map rctThrottle =
      [.fieldError .throttle .mode, .fieldError .throttle .startCurrent, .success, .unknownCode 24#8] := by decide

/-! ### FRA and SEQ, single steps (V2.60 to V2.87, and steps of the programs P3 to P8) -/

/-- V2.60. -/
theorem test_arm_idle :
    exec (.fraArm 19 ⟨.read, .general⟩) State.reset
      = .next { State.reset with need := 19, ctx := ⟨.read, .general⟩ } := rfl

/-- V2.64. -/
theorem test_arm_armed :
    exec (.fraArm 2 ⟨.write, .pedalAssist⟩) (armed 20 .read .basic (bas.take 7))
      = .next { armed 2 .write .pedalAssist [] with out := [.log (.wRearm ⟨.read, .basic⟩ 7 20)] } := rfl

/-- V2.66. -/
theorem test_cancel : exec .fraCancel (armed 20 .read .basic (bas.take 7)) = .next (armed 0 .read .basic []) := rfl

/-- V2.61. -/
theorem test_feed_accepted :
    exec (.feed 0x54#8) (armed 2 .write .throttle []) = .next (armed 1 .write .throttle [0x54#8]) := rfl

/-- V2.87: the stale chain flag turns a completed General read into a Basic read. -/
theorem test_feed_completes_and_chains :
    exec (.feed 0x1B#8) { armed 1 .read .general (gen.take 18) with chain := true }
      = .next { armed 27 .read .basic [] with
          chain := true, prf := { pr0 with info := some g0 }
          out := [.ev (.blockRead .general), .tx [0x11#8, 0x52#8]] } := rfl

/-- Program P1, the first step. -/
theorem test_connect :
    exec .connect State.reset = .next { State.reset with
      conn := true, need := 19
      out := [.ev (.transportState true), .tx [0x11#8, 0x51#8, 0x04#8, 0xB0#8, 0x05#8]] } := rfl

/-- V2.81. -/
theorem test_connect_connected :
    exec .connect (idle pr0) = .next { idle pr0 with out := [.log .wAlreadyConnected] } := rfl

/-- Program P5: CLOSE in mid-frame. -/
theorem test_close_in_mid_frame :
    exec .close { armed 22 .read .basic (bas.take 5) with chain := true }
      = .next { armed 0 .read .basic [] with conn := false, out := [.ev (.transportState false)] } := rfl

/-- Program P6: TFAIL one byte before the end. -/
theorem test_tfail :
    exec .tfail (armed 1 .read .pedalAssist (ped.take 13))
      = .next { armed 0 .read .pedalAssist [] with
          conn := false, out := [.log .eTransport, .ev (.transportState false)] } := rfl

/-- V2.72. -/
theorem test_write_basic :
    exec .writeBasic (idle pr0) = .next { armed 2 .write .basic [] with
      out := [.tx ([0x16#8, 0x52#8, 0x18#8] ++ basPayload ++ [0x12#8])] } := rfl

/-- V2.73. -/
theorem test_write_pedal :
    exec .writePedal (idle pr0) = .next { armed 2 .write .pedalAssist [] with
      out := [.tx ([0x16#8, 0x53#8, 0x0B#8] ++ pedPayload ++ [0xA4#8])] } := rfl

/-- V2.77. -/
theorem test_write_out_of_range :
    exec .writeBasic (idle { pr0 with basic := some b0Wide })
      = .next { idle { pr0 with basic := some b0Wide } with out := [.log (.wEncRange .basic)] } := rfl

/-- V2.75. -/
theorem test_write_info : exec .writeInfo (idle pr0) = .next { idle pr0 with out := [.log .wGeneralWrite] } := rfl

/-- V2.78. -/
theorem test_read_busy :
    exec .readBasic (armed 5 .read .general (gen.take 14))
      = .next { armed 5 .read .general (gen.take 14) with out := [.log (.wBusy ⟨.read, .general⟩ 5)] } := rfl

/-- V2.80: READALL is refused, but `chain` is set. -/
theorem test_readall_busy :
    exec .readall (armed 5 .read .general (gen.take 14))
      = .next { armed 5 .read .general (gen.take 14) with
          chain := true, out := [.log (.wBusy ⟨.read, .general⟩ 5)] } := rfl

/-- Program P4: a rejected write leaves `chain` set. -/
theorem test_write_rejected_keeps_chain :
    exec (.feed 0x06#8) { armed 1 .write .pedalAssist [0x53#8] with chain := true }
      = .next { armed 0 .write .pedalAssist [] with
          chain := true
          out := [.log (.eWriteRejected .pedalAssist 6#8),
            .ev (.blockWritten .pedalAssist (some (.fieldError .pedalAssist .workMode)))] } := rfl

/-- Program P4b: with `P_WFAIL_ADVANCE` the chain goes on. -/
theorem test_write_rejected_advances :
    exec (.feed 0x06#8) { armed 1 .write .pedalAssist [0x53#8] with chain := true, params := ⟨false, .one, true⟩ }
      = .next { armed 2 .write .throttle [] with
          chain := true, params := ⟨false, .one, true⟩
          out := [.log (.eWriteRejected .pedalAssist 6#8),
            .ev (.blockWritten .pedalAssist (some (.fieldError .pedalAssist .workMode))),
            .tx ([0x16#8, 0x54#8, 0x06#8] ++ thrPayload ++ [0x90#8])] } := rfl

/-- V2.86. -/
theorem test_unexpected_id :
    exec (.feed 0x18#8) (armed 1 .write .basic [0x53#8])
      = .next { armed 0 .write .basic [] with out := [.log (.wUnknownId 0x53#8 .basic)] } := rfl

/-- Program P8: inbound verification rejects `GEN`. -/
theorem test_inbound_checksum :
    exec (.rrGeneral (gen.drop 1)) { armed 19 .read .general [] with params := ⟨true, .one, false⟩ }
      = .next { armed 0 .read .general [] with
          params := ⟨true, .one, false⟩, out := [.log (.eRxChecksum .general gen)] } := rfl

/-- What program P7 says the shifted frame decodes to. -/
def shifted : ThrottleRecord :=
  { startVoltage := 6#8, endVoltage := 11#8, mode := .num 35#8, designatedAssist := .num 0#8, speedLimit := .display,
    startCurrent := 255#8 }

/-- Program P7: a surplus byte shifts the frame. -/
theorem test_surplus_byte :
    exec (.rrThrottle (0x54#8 :: (thr.drop 1).take 7)) { armed 9 .read .throttle [] with prf := Profile.empty }
      = .next { armed 0 .read .throttle [] with
          prf := { Profile.empty with throttle := some shifted }, out := [.ev (.blockRead .throttle)] } := rfl

/-! ### Witnesses: states and operands that meet the hypotheses of the statements, clause by clause -/

/-- Parameters with inbound verification on (program P8). -/
def verifying : Params := ⟨true, .one, false⟩

theorem witness_StepRunsTheDecodedEvent :
    ({ idle pr0 with input := [⟨[0x06#8, 0xAA#8], .none⟩] } : State).input = [⟨[0x06#8, 0xAA#8], .none⟩] ∧
    decodeEvent ⟨[0x06#8, 0xAA#8], .none⟩ = .ok (.feed 0xAA#8) ∧ State.reset.input = [] := ⟨rfl, rfl, rfl⟩

theorem witness_CommandWordsOfTheTable :
    (∀ c ∈ [0x07#8, 0x0F#8, 0x14#8, 0x24#8, 0x34#8, 0x54#8, 0x60#8, 0x64#8, 0x70#8, 0x74#8, 0xFF#8],
      isCommandWord c = false) ∧
    isInternal (.fraArm 0 ⟨.read, .general⟩) = true ∧ isInternal .fraCancel = true ∧
    isInternal (.completeRead [] .basic) = true ∧ isInternal (.completeWrite [] .basic) = true := by decide

theorem witness_DecodeOfEncodeIsTheInstruction :
    (Instr.wqThrottle thrPayload 0x90#8).wellFormed = true ∧
    encode (.wqThrottle thrPayload 0x90#8) = some (.frame ([0x16#8, 0x54#8, 0x06#8] ++ thrPayload ++ [0x90#8])) ∧
    (Instr.encBasic b0).wellFormed = true ∧ encode (.encBasic b0) = some (.event ⟨[0x61#8], .basic b0⟩) := by decide

theorem witness_EncodeOfDecodeIsTheEncoding :
    decode (.frame thr) = .ok (.rrThrottle (thr.drop 1)) ∧
    decode (.event ⟨[0x06#8, 0xAA#8], .none⟩) = .ok (.feed 0xAA#8) := ⟨rfl, rfl⟩

theorem witness_OnlyInputEventsAreDecodedFromThePort :
    decodeEvent ⟨[0x00#8], .none⟩ = .ok .connect := rfl

/-- For ChecksumIsAnAccumulator and the last clause of VerifyComparesTheLastByte. -/
theorem witness_ChecksumIsAnAccumulator :
    [0x01#8, 0x02#8, 0x03#8].Perm [0x03#8, 0x02#8, 0x01#8] := by decide

theorem witness_AppendReturnsTheListWithItsChecksum : [0x11#8, 0x51#8, 0x04#8, 0xB0#8] ≠ [] := by decide

theorem witness_RxokSumsFromTheParameter :
    [0x07#8] ≠ [] ∧ ({ idle pr0 with params := ⟨false, .zero, false⟩ } : State).params.rxSumFrom = .zero ∧
    ({ idle pr0 with params := verifying } : State).params.rxSumFrom = .one ∧
    ([] : List Byte).length < 2 ∧ [0x07#8].length < 2 := by decide

/-- For DecodeGeneralFields, DecodeBasicFields, DecodePedalFields, DecodeThrottleFields and
EncodeAfterDecodeIsTheFrame. -/
theorem witness_DecodeFields : gen.length = 19 ∧ bas.length = 27 ∧ ped.length = 14 ∧ thr.length = 9 := by decide

theorem witness_DecodeOfAnotherLengthIsDecErr :
    (gen.take 18).length ≠ 19 ∧ (gen ++ [0x00#8]).length ≠ 19 ∧ (bas.take 26).length ≠ 27 ∧
    (bas ++ [0x00#8]).length ≠ 27 ∧ (ped.take 13).length ≠ 14 ∧ (ped ++ [0x00#8]).length ≠ 14 ∧
    (thr.take 8).length ≠ 9 ∧ (thr ++ [0x00#8]).length ≠ 9 := by decide

theorem witness_EncodeBasicPayload :
    ((∀ n, b0Max.wheelSize = .inches n → n.toNat ≤ 127) ∧ b0Max.speedmeterSignals.toNat ≤ 63 ∧
      (∀ n, b0Max.speedmeterModel ≠ .num n)) ∧
    (∃ n, b0Wide.wheelSize = .inches n ∧ 128 ≤ n.toNat) ∧
    63 < ({ b0 with speedmeterSignals := 64#8 } : BasicRecord).speedmeterSignals.toNat ∧
    (∃ n, ({ b0 with speedmeterModel := .num 2#8 } : BasicRecord).speedmeterModel = .num n) := by
  refine ⟨⟨?_, by decide, ?_⟩, ⟨128#8, rfl, by decide⟩, by decide, ⟨2#8, rfl⟩⟩
  · intro n h
    cases h
    decide
  · intro n h
    cases h

theorem witness_DecodeAfterEncodeIsCanonical :
    exec (.encBasic b0) State.reset = .next { State.reset with ret := some (.bytes basPayload) } ∧
    exec (.encPedal q0) State.reset = .next { State.reset with ret := some (.bytes pedPayload) } ∧
    exec (.encThrottle t0) State.reset = .next { State.reset with ret := some (.bytes thrPayload) } :=
  ⟨rfl, rfl, rfl⟩

/-- For the last three clauses of DecodeAfterEncodeIsCanonical. -/
theorem witness_canonical_records :
    b0.speedmeterModel ≠ .invalidLabel ∧
    (let r : PedalRecord := { q0 with pedalType := .num 4#8, designatedAssist := .num 0xFE#8 }
     r.pedalType ≠ .invalidLabel ∧ (∀ n, r.pedalType = .num n → 3 < n.toNat) ∧
     r.designatedAssist ≠ .num 0xFF#8 ∧ r.speedLimit ≠ .num 0xFF#8 ∧ r.workMode ≠ .num 0xFF#8) ∧
    (let r : ThrottleRecord := { t0 with mode := .num 2#8 }
     r.mode ≠ .invalidLabel ∧ (∀ n, r.mode = .num n → 1 < n.toNat) ∧
     r.designatedAssist ≠ .num 0xFF#8 ∧ r.speedLimit ≠ .num 0xFF#8) := by
  refine ⟨by decide, ⟨by decide, ?_, by decide, by decide, by decide⟩, ⟨by decide, ?_, by decide, by decide⟩⟩ <;>
    (intro n h; cases h; decide)

/-- For ConnectReadsGeneral, CloseResetsTheSession and TransportFailureLogsAndCloses, both cases, and for the refusals of
ResetLeavesTheStatedValues. -/
theorem witness_ConnectCloseFail : State.reset.conn = false ∧ (idle pr0).conn = true := by decide

/-- For ReadSendsAndArms, ReadAllStartsTheChain, WriteAllStartsTheChain, WriteSendsAndArms and the first clause of
WriteRefusals. -/
theorem witness_RequestsFromIdle :
    (idle pr0).conn = true ∧ (idle pr0).need = 0 ∧ (idle pr0).prf.basic = some b0 ∧
    encodeBasic b0 = some basPayload ∧ (idle pr0).prf.pedal = some q0 ∧ (idle pr0).prf.throttle = some t0 := by decide

/-- For RequestGuardRefuses (with `State.reset`), WriteRefusals and the refusals of WriteAllStartsTheChain. -/
theorem witness_RequestsRefused :
    (idle Profile.empty).conn = true ∧ (idle Profile.empty).need = 0 ∧ (idle Profile.empty).prf.basic = none ∧
    (idle Profile.empty).prf.pedal = none ∧ (idle Profile.empty).prf.throttle = none ∧
    (idle { pr0 with basic := some b0Wide }).prf.basic = some b0Wide ∧ encodeBasic b0Wide = none ∧
    (armed 1 .read .basic []).conn = true ∧ 0 < (armed 1 .read .basic []).need := by decide

theorem witness_ArmInstallsTheExpectation :
    1 ≤ 1 ∧ 1 ≤ 27 ∧ 27 ≤ 27 ∧ (idle pr0).need = 0 ∧ 0 < (armed 1 .read .basic []).need ∧
    (0 < 1 ∨ 27 < 0) ∧ (28 < 1 ∨ 27 < 28) := by decide

theorem witness_FeedStrayAcceptedOrCompleting :
    (idle pr0).need = 0 ∧ 1 < (armed 2 .read .basic []).need ∧ (armed 1 .read .basic []).need = 1 ∧
    (armed 1 .read .basic []).ctx = ⟨.read, .basic⟩ ∧ (armed 1 .write .basic []).need = 1 ∧
    (armed 1 .write .basic []).ctx = ⟨.write, .basic⟩ := by decide

theorem witness_FeedingExactlyTheExpectedBytes :
    (thr.take 8).length < (armed 9 .read .throttle []).need ∧ ([] : List Byte).length < (armed 1 .read .basic []).need ∧
    thr ≠ [] ∧ (armed 9 .read .throttle []).need = thr.length ∧
    (armed 9 .read .throttle []).ctx = ⟨.read, .throttle⟩ ∧
    [0x52#8, 0x18#8] ≠ [] ∧ (armed 2 .write .basic []).need = [0x52#8, 0x18#8].length ∧
    (armed 2 .write .basic []).ctx = ⟨.write, .basic⟩ := by decide

/-- For ReceivedFrameIsItsBytesInOrder and ResponseWhileIdleIsStray. -/
theorem witness_ReceivedFrames :
    encode (.rrThrottle (thr.drop 1)) = some (.frame thr) ∧ thr.head? ≠ some 0x11#8 ∧ thr.head? ≠ some 0x16#8 ∧
    encode (.waBasic 0x18#8) = some (.frame [0x52#8, 0x18#8]) ∧ (idle pr0).need = 0 := by decide

/-- For ReadCompletionStoresTheRecord and ReadCompletionChains. -/
theorem witness_ReadCompletion :
    (idle pr0).params.verifyRx = false ∧ (idle pr0).chain = false ∧
    ({ idle pr0 with chain := true } : State).chain = true ∧ (idle pr0).conn = true ∧ (idle pr0).need = 0 ∧
    (gen.length = 19 ∧ gen.getD 0 0#8 = 0x51#8) ∧ (bas.length = 27 ∧ bas.getD 0 0#8 = 0x52#8) ∧
    (ped.length = 14 ∧ ped.getD 0 0#8 = 0x53#8) ∧ (thr.length = 9 ∧ thr.getD 0 0#8 = 0x54#8) ∧
    csuRxok verifying.rxSumFrom (genEnding 0xD8#8) = true := by decide

theorem witness_RejectedFramesAreDropped :
    gen.length = Config.len .general ∧ verifying.verifyRx = true ∧ csuRxok verifying.rxSumFrom gen = false ∧
    (idle pr0).params.verifyRx = false ∧ (0x41#8 :: gen.drop 1).length = Config.len .general ∧
    (0x41#8 :: gen.drop 1).getD 0 0#8 ≠ Config.blockId .general ∧
    [0x53#8, 0x18#8].length = 2 ∧ [0x53#8, 0x18#8].getD 0 0#8 ≠ Config.blockId .basic := by decide

/-- For WriteCompletionSuccess and WriteCompletionFailure. -/
theorem witness_WriteCompletion :
    (idle pr0).chain = false ∧ ({ idle pr0 with chain := true } : State).chain = true ∧
    0x05#8 ≠ 0x18#8 ∧ 0x06#8 ≠ 0x0B#8 ∧ 0x02#8 ≠ 0x06#8 ∧ (idle pr0).params.wfailAdvance = false ∧
    ({ idle pr0 with params := ⟨false, .one, true⟩ } : State).params.wfailAdvance = true := by decide

theorem witness_CompletionOutsideItsDomainStops :
    (thr.take 8).length ≠ Config.len .throttle ∧ [0x52#8].length ≠ 2 ∧ [0x52#8, 0x18#8, 0x00#8].length ≠ 2 := by decide

theorem witness_ReadResponseFillsItsSlot :
    (armed 19 .read .general []).params.verifyRx = false ∧ (armed 19 .read .general []).chain = false ∧
    (armed 19 .read .general []).buf = [] ∧
    ((gen.drop 1).length = 18 ∧ (armed 19 .read .general []).need = 19 ∧
      (armed 19 .read .general []).ctx = ⟨.read, .general⟩) ∧
    ((bas.drop 1).length = 26 ∧ (armed 27 .read .basic []).need = 27 ∧
      (armed 27 .read .basic []).ctx = ⟨.read, .basic⟩) ∧
    ((ped.drop 1).length = 13 ∧ (armed 14 .read .pedalAssist []).need = 14 ∧
      (armed 14 .read .pedalAssist []).ctx = ⟨.read, .pedalAssist⟩) ∧
    ((thr.drop 1).length = 8 ∧ (armed 9 .read .throttle []).need = 9 ∧
      (armed 9 .read .throttle []).ctx = ⟨.read, .throttle⟩) := by decide

theorem witness_AcknowledgementEndsTheWrite :
    (∀ k ∈ [Kind.basic, .pedalAssist, .throttle],
      (armed 2 .write k []).chain = false ∧ (armed 2 .write k []).buf = [] ∧ (armed 2 .write k []).need = 2 ∧
      (armed 2 .write k []).ctx = ⟨.write, k⟩) := by decide

/-- States that meet the invariants, Idle and armed, and a step from each. -/
theorem witness_inv_idle : (idle pr0).Inv :=
  ⟨by decide, by decide, by decide, by decide, by decide, by decide⟩

theorem witness_inv_armed : (armed 1 .write .basic [0x52#8]).Inv :=
  ⟨by decide, by decide, by decide, by decide, by decide, by decide⟩

theorem witness_StepKeepsTheInvariants :
    step { armed 1 .write .basic [0x52#8] with input := [⟨[0x06#8, 0x18#8], .none⟩] }
      = .next { armed 0 .write .basic [] with out := [.ev (.blockWritten .basic none)] } := rfl

theorem witness_ReachableStatesMeetTheInvariants :
    Reachable { State.reset with params := verifying, input := [⟨[0x00#8], .none⟩] } := .start _ _

/-- A step that is refused, from a state that meets the invariants. -/
theorem witness_NoInputEventStopsTheMachine :
    ({ State.reset with input := [⟨[], .none⟩] } : State).Inv ∧
    step { State.reset with input := [⟨[], .none⟩] } = .refused (.malformedEvent .noCommandWord) :=
  ⟨⟨by decide, by decide, by decide, by decide, by decide, by decide⟩, rfl⟩

/-- A step that sends, from Idle. -/
theorem witness_EverySendArmsForItsResponse :
    ({ idle pr0 with input := [⟨[0x11#8], .none⟩] } : State).Inv ∧
    step { idle pr0 with input := [⟨[0x11#8], .none⟩] }
      = .next { armed 27 .read .basic [] with out := [.tx [0x11#8, 0x52#8]] } :=
  ⟨⟨by decide, by decide, by decide, by decide, by decide, by decide⟩, rfl⟩

/-- For OnlyReadsAndLoadsChangeTheProfile, OutputsOnlyGrow and WhatChangesConnAndChain: LOADPROFILE, a Throttle
completion, READALL. -/
theorem witness_InputEvents :
    isInputEvent (.loadprofile pr0) = true ∧ exec (.loadprofile pr0) State.reset = .next { State.reset with prf := pr0 } ∧
    isInputEvent (.feed 0x06#8) = true ∧ exec (.feed 0x06#8) { armed 1 .write .throttle [0x54#8] with chain := true }
      = .next { armed 0 .write .throttle [] with out := [.ev (.blockWritten .throttle none)] } ∧
    isInputEvent .readall = true ∧ exec .readall (idle pr0)
      = .next { armed 27 .read .basic [] with chain := true, out := [.tx [0x11#8, 0x52#8]] } :=
  ⟨rfl, rfl, rfl, rfl, rfl, rfl⟩

/-- Two causes in one step: a rejected write advances into a block that has no record. -/
theorem witness_AtMostOneCausePerOperation :
    exec (.feed 0x05#8)
        { armed 1 .write .basic [0x52#8] with chain := true, params := ⟨false, .one, true⟩, prf := Profile.empty }
      = .next { armed 0 .write .basic [] with
          chain := true, params := ⟨false, .one, true⟩, prf := Profile.empty
          out := [.log (.eWriteRejected .basic 5#8),
            .ev (.blockWritten .basic (some (.fieldError .basic (.assistSpeed 1)))),
            .log (.wNoRecord .pedalAssist)] } := rfl

/-- For ReadAllRunsTheWholeChain and WriteAllRunsTheWholeChain. -/
theorem witness_RunsOfTheWholeChain :
    (idle pr0).conn = true ∧ (idle pr0).need = 0 ∧ (idle pr0).chain = false ∧ (idle pr0).params.verifyRx = false ∧
    (bas.drop 1).length = 26 ∧ (ped.drop 1).length = 13 ∧ (thr.drop 1).length = 8 ∧
    (idle pr0).prf.basic = some b0 ∧ encodeBasic b0 = some basPayload ∧ (idle pr0).prf.pedal = some q0 ∧
    (idle pr0).prf.throttle = some t0 := by decide

end Sys2Proof.Tests
end

section
/-! How `step` reads the command port: one equation per answer of the port that O2 speaks of. -/

namespace Sys2Proof.Machine

/-- The machine waits for an event; it never stops of itself (70_reset_and_hazards.md R392, log entry 4). -/
theorem step_of_input_nil {s : State} (hinput : s.input = []) : step s = .next s := by
  simp only [step, hinput]

/-- The oldest event is taken off the input before its instruction runs (00_scope.md R11). -/
theorem step_of_decodeEvent_ok {s : State} {e : Event} {rest : List Event} {i : Instr}
    (hinput : s.input = e :: rest) (hdecode : decodeEvent e = .ok i) :
    step s = exec i (setInput rest s) := by
  simp only [step, hinput, hdecode]

/-- Settles O2: the two equations of `step`, the first with `setInput` written out as the record update it is. -/
theorem stepRunsTheDecodedEvent : Obligations.StepRunsTheDecodedEvent := by
  unfold Obligations.StepRunsTheDecodedEvent
  constructor
  · intro s e rest i hinput hdecode
    exact step_of_decodeEvent_ok hinput hdecode
  · intro s hinput
    exact step_of_input_nil hinput

end Sys2Proof.Machine
end

section
/-! What an input event does, said once: the shared operation of the sequencer that its instruction runs. -/

namespace Sys2Proof.Machine

/-- `InputEffect s i o`: in state `s` the input event `i` has the outcome `o`, named by the operation that gives it.
The eight READ and WRITE requests are told apart by their kind, the pure operations by the value they return. -/
inductive InputEffect (s : State) : Instr → Host.Outcome State Fault Refusal → Prop where
  | connect : InputEffect s .connect (.next (connect s))
  | close : InputEffect s .close (.next (close s))
  | tfail : InputEffect s .tfail (.next (close (raise .eTransport s)))
  | readall : InputEffect s .readall (.next (requestRead .basic (setChain true s)))
  | writeall : InputEffect s .writeall (.next (requestWrite .basic (setChain true s)))
  | loadprofile (q : Profile) : InputEffect s (.loadprofile q) (.next (setProfile q s))
  | feed (b : Byte) {o : Host.Outcome State Fault Refusal} (outcome : feedByte b s = o) : InputEffect s (.feed b) o
  | read (i : Instr) (k : Kind) : InputEffect s i (.next (requestRead k s))
  | write (i : Instr) (k : Kind) : InputEffect s i (.next (requestWrite k s))
  | pure (i : Instr) (r : Result) : InputEffect s i (.next (setRet r s))

/-- Every input event runs one of these operations. -/
theorem exec_inputEffect {i : Instr} (hi : isInputEvent i = true) (s : State) : InputEffect s i (exec i s) := by
  cases i with
  | connect => exact .connect
  | close => exact .close
  | tfail => exact .tfail
  | readall => exact .readall
  | writeall => exact .writeall
  | loadprofile q => exact .loadprofile q
  | feed b => exact .feed b rfl
  | readInfo => exact .read _ .general
  | readBasic => exact .read _ .basic
  | readPedal => exact .read _ .pedalAssist
  | readThrottle => exact .read _ .throttle
  | writeInfo => exact .write _ .general
  | writeBasic => exact .write _ .basic
  | writePedal => exact .write _ .pedalAssist
  | writeThrottle => exact .write _ .throttle
  | csuSum | csuAppend | csuVerify | csuRxok => exact .pure _ _
  | decGeneral | decBasic | decPedal | decThrottle => exact .pure _ _
  | encBasic | encPedal | encThrottle => exact .pure _ _
  | rctBasic | rctPedal | rctThrottle => exact .pure _ _
  | fraArm | fraCancel | completeRead | completeWrite => cases hi
  | rq5General | rq2Basic | rq2Pedal | rq2Throttle => cases hi
  | wqBasic | wqPedal | wqThrottle => cases hi
  | rrGeneral | rrBasic | rrPedal | rrThrottle => cases hi
  | waBasic | waPedal | waThrottle => cases hi

/-- The same, for an input event that gives a next state. -/
theorem inputEffect_of_exec_next {i : Instr} {s t : State} (hi : isInputEvent i = true) (hexec : exec i s = .next t) :
    InputEffect s i (.next t) :=
  hexec ▸ exec_inputEffect hi s

/-- The table of command words lists public and pure operations only (30_encoding.md R121). -/
theorem isInputEvent_of_decodeCommand {c : Byte} {args : List Byte} {o : Operand} {i : Instr}
    (hdecode : decodeCommand c args o = .ok i) : isInputEvent i = true := by
  unfold decodeCommand at hdecode
  split at hdecode <;> cases hdecode <;> rfl

/-- So the command port yields input events only: no internal operation and no wire frame (10_state.md R43, R45). -/
theorem isInputEvent_of_decodeEvent {e : Event} {i : Instr} (hdecode : decodeEvent e = .ok i) :
    isInputEvent i = true := by
  unfold decodeEvent at hdecode
  split at hdecode
  · cases hdecode
  · split at hdecode
    · exact isInputEvent_of_decodeCommand hdecode
    · cases hdecode

/-- The completion step of a context, by its direction (10_state.md R31, 41_frame_assembler.md R165). -/
theorem complete_cases (c : Ctx) (f : List Byte) (s : State) :
    (c.dir = .read ∧ complete c f s = completeRead f c.kind s) ∨
    (c.dir = .write ∧ complete c f s = completeWrite f c.kind s) := by
  cases h : c.dir <;> simp [complete, h]

end Sys2Proof.Machine
end

section
/-! The invariants (a) to (e) of 10_state.md R36: each operation keeps them, so every step does. -/

namespace Sys2Proof.Machine

/-- R36 speaks of `need`, `buf`, `ctx` and `conn` only: an update that leaves these four alone keeps it. -/
theorem State.Inv.of_same_session {s t : State} (hs : s.Inv) (hneed : t.need = s.need) (hbuf : t.buf = s.buf)
    (hctx : t.ctx = s.ctx) (hconn : t.conn = s.conn) : t.Inv where
  needBound := hneed ▸ hs.needBound
  bufBound := hbuf ▸ hs.bufBound
  idleEmpty := by rw [hneed, hbuf]; exact hs.idleEmpty
  armedLength := by rw [hneed, hbuf, hctx]; exact hs.armedLength
  armedConnected := by rw [hneed, hconn]; exact hs.armedConnected
  armedWriteKind := by rw [hneed, hctx]; exact hs.armedWriteKind

/-- An output is no part of the session. -/
theorem State.Inv.after_pushOut {s : State} (hs : s.Inv) (o : Output) : (pushOut o s).Inv :=
  hs.of_same_session rfl rfl rfl rfl

/-- Neither are the pending events. -/
theorem State.Inv.after_setInput {s : State} (hs : s.Inv) (rest : List Event) : (setInput rest s).Inv :=
  hs.of_same_session rfl rfl rfl rfl

/-- A disarmed assembler with an empty buffer meets R36, whatever the other fields. -/
theorem inv_of_idle {s : State} (hneed : s.need = 0) (hbuf : s.buf = []) : s.Inv where
  needBound := by omega
  bufBound := by simp [hbuf]
  idleEmpty := fun _ => hbuf
  armedLength := fun h => by omega
  armedConnected := fun h => by omega
  armedWriteKind := fun h => by omega

/-- Every frame a context awaits fits the buffer. -/
theorem expectedLen_le (c : Ctx) : expectedLen c ≤ 27 := by
  obtain ⟨dir, k⟩ := c
  cases dir with
  | read => exact (len_legal k).2
  | write => exact show Config.ackLen ≤ 27 by decide

/-- Arming for the whole frame of a context, while connected and not for a write of General, meets R36. -/
theorem inv_installExpectation {c : Ctx} {s : State} (hconn : s.conn = true)
    (hkind : c.dir = .write → c.kind ≠ .general) : (installExpectation (expectedLen c) c s).Inv where
  needBound := expectedLen_le c
  bufBound := Nat.zero_le _
  idleEmpty := fun _ => rfl
  armedLength := fun _ => Nat.zero_add _
  armedConnected := fun _ => hconn
  armedWriteKind := fun _ => hkind

/-- `READ k` is refused with a record, or arms for the response of `k`. -/
theorem State.Inv.after_requestRead {s : State} (hs : s.Inv) (k : Kind) : (requestRead k s).Inv := by
  rcases requestRead_cases k s with ⟨c, _, heq⟩ | ⟨hconn, _, heq⟩ <;> rw [heq]
  · exact hs.after_pushOut (.log c)
  · exact inv_installExpectation (c := ⟨.read, k⟩) hconn nofun

/-- `WRITE k` is refused with a record, or arms for the acknowledgement of `k`, which is then not General. -/
theorem State.Inv.after_requestWrite {s : State} (hs : s.Inv) (k : Kind) : (requestWrite k s).Inv := by
  rcases requestWrite_cases k s with ⟨c, heq, _⟩ | ⟨p, hconn, _, hk, _, heq⟩ <;> rw [heq]
  · exact hs.after_pushOut (.log c)
  · exact inv_installExpectation (c := ⟨.write, k⟩) hconn fun _ => hk

/-- A chain step keeps R36 when its request does. -/
theorem State.Inv.after_chainStep {request : Kind → State → State}
    (hrequest : ∀ (k : Kind) (s : State), s.Inv → (request k s).Inv) {s : State} (hs : s.Inv) (k : Kind) :
    (chainStep request k s).Inv := by
  rcases chainStep_cases request k s with ⟨_, heq⟩ | ⟨_, _, heq⟩ | ⟨k', _, _, heq⟩ <;> rw [heq]
  · exact hs.of_same_session rfl rfl rfl rfl
  · exact hs
  · exact hrequest k' s hs

/-- COMPLETE.READ keeps R36. -/
theorem State.Inv.after_completeRead {f : List Byte} {k : Kind} {s t : State} (hs : s.Inv)
    (hcomplete : completeRead f k s = .next t) : t.Inv := by
  obtain ⟨_, ⟨c, rfl⟩ | ⟨r, _, rfl⟩⟩ := completeRead_cases hcomplete
  · exact hs.after_pushOut (.log c)
  · have hstored : (emit (.blockRead k) (storeSlot r s)).Inv := hs.of_same_session rfl rfl rfl rfl
    exact hstored.after_chainStep (fun k _ h => h.after_requestRead k) k

/-- COMPLETE.WRITE keeps R36. -/
theorem State.Inv.after_completeWrite {f : List Byte} {k : Kind} {s t : State} (hs : s.Inv)
    (hcomplete : completeWrite f k s = .next t) : t.Inv := by
  have hchain : ∀ {u : State}, u.Inv → (chainStep requestWrite k u).Inv :=
    fun hu => hu.after_chainStep (fun k _ h => h.after_requestWrite k) k
  obtain ⟨_, ⟨_, rfl⟩ | ⟨_, _, rfl⟩ | ⟨v, _, _, _, ⟨_, rfl⟩ | ⟨_, rfl⟩⟩⟩ := completeWrite_cases hcomplete
  · exact hs.after_pushOut _
  · exact hchain (hs.after_pushOut _)
  · exact (hs.after_pushOut _).after_pushOut _
  · exact hchain ((hs.after_pushOut _).after_pushOut _)

/-- An accepted byte that is not the last moves one from `need` to the buffer. -/
theorem State.Inv.after_acceptByte {s : State} (hs : s.Inv) (b : Byte) (hneed : 1 < s.need) : (acceptByte b s).Inv := by
  have hbuf : (acceptByte b s).buf.length = s.buf.length + 1 := by
    rw [acceptByte_buf, memWrite_at_end, List.length_append, List.length_singleton]
  have hlen : s.buf.length + s.need = expectedLen s.ctx := hs.armedLength (by omega)
  have hle : expectedLen s.ctx ≤ 27 := expectedLen_le s.ctx
  exact
    { needBound := by rw [acceptByte_need]; omega
      bufBound := by omega
      idleEmpty := by rw [acceptByte_need]; omega
      armedLength := by rw [acceptByte_need, acceptByte_ctx]; omega
      armedConnected := fun _ => hs.armedConnected (by omega)
      armedWriteKind := fun _ => hs.armedWriteKind (by omega) }

/-- FEED keeps R36: the last byte leaves the assembler disarmed before the completion step runs. -/
theorem State.Inv.after_feedByte {b : Byte} {s t : State} (hs : s.Inv) (hfeed : feedByte b s = .next t) : t.Inv := by
  rcases feedByte_cases b s with ⟨_, heq⟩ | ⟨hneed, heq⟩ | ⟨_, heq⟩ <;> rw [heq] at hfeed
  · cases hfeed
    exact hs.after_pushOut _
  · cases hfeed
    exact hs.after_acceptByte b hneed
  · have hidle : { s with need := 0, buf := [] }.Inv := inv_of_idle rfl rfl
    rcases complete_cases s.ctx (s.buf ++ [b]) { s with need := 0, buf := [] } with ⟨_, heq⟩ | ⟨_, heq⟩ <;>
      rw [heq] at hfeed
    · exact hidle.after_completeRead hfeed
    · exact hidle.after_completeWrite hfeed

/-- CONNECT warns, or drops what was armed and arms for the General response. -/
theorem State.Inv.after_connect {s : State} (hs : s.Inv) : (connect s).Inv := by
  rcases connect_cases s with ⟨_, heq⟩ | ⟨_, heq⟩ <;> rw [heq]
  · exact hs.after_pushOut _
  · exact inv_installExpectation (c := ⟨.read, .general⟩) rfl nofun

/-- CLOSE does nothing, or leaves the assembler disarmed. -/
theorem State.Inv.after_close {s : State} (hs : s.Inv) : (close s).Inv := by
  rcases close_cases s with ⟨_, heq⟩ | ⟨_, heq⟩ <;> rw [heq]
  · exact hs
  · exact inv_of_idle rfl rfl

/-- Every input event keeps R36. -/
theorem State.Inv.after_exec {i : Instr} {s t : State} (hs : s.Inv) (hi : isInputEvent i = true)
    (hexec : exec i s = .next t) : t.Inv := by
  have hchain : (setChain true s).Inv := hs.of_same_session rfl rfl rfl rfl
  cases inputEffect_of_exec_next hi hexec with
  | connect => exact hs.after_connect
  | close => exact hs.after_close
  | tfail => exact (hs.after_pushOut _).after_close
  | readall => exact hchain.after_requestRead .basic
  | writeall => exact hchain.after_requestWrite .basic
  | loadprofile q => exact hs.of_same_session rfl rfl rfl rfl
  | feed b hfeed => exact hs.after_feedByte hfeed
  | read _ k => exact hs.after_requestRead k
  | write _ k => exact hs.after_requestWrite k
  | pure _ r => exact hs.of_same_session rfl rfl rfl rfl

/-- A step runs an input event, or at most takes an event off the input. -/
theorem State.Inv.after_step {s t : State} (hs : s.Inv) (hstep : step s = .next t) : t.Inv := by
  rcases step_cases hstep with ⟨_, rfl⟩ | ⟨e, rest, i, _, hdecode, hexec⟩ | ⟨e, rest, c, _, _, rfl⟩
  · exact hs
  · exact (hs.after_setInput rest).after_exec (isInputEvent_of_decodeEvent hdecode) hexec
  · exact hs.after_setInput rest

/-- Settles O50, through `State.Inv.after_exec`: every input event keeps R36. -/
theorem stepKeepsTheInvariants : Obligations.StepKeepsTheInvariants := by
  unfold Obligations.StepKeepsTheInvariants
  intro s t hs hstep
  exact hs.after_step hstep

/-- Settles O51: reset leaves the assembler disarmed. -/
theorem resetMeetsTheInvariants : Obligations.ResetMeetsTheInvariants := by
  unfold Obligations.ResetMeetsTheInvariants
  exact inv_of_idle rfl rfl

/-- Every reachable state meets R36: a run starts disarmed, with any parameters and events. -/
theorem Reachable.inv {s : State} (hs : Reachable s) : s.Inv := by
  induction hs with
  | start p events => exact inv_of_idle rfl rfl
  | next _ hstep ih => exact ih.after_step hstep

/-- Settles O52: the fields of `State.Inv`, with `expectedLen` written out. -/
theorem reachableStatesMeetTheInvariants : Obligations.ReachableStatesMeetTheInvariants := by
  unfold Obligations.ReachableStatesMeetTheInvariants
  intro s hs
  obtain ⟨hneed, hbuf, hidle, hlength, hconn, hkind⟩ := hs.inv
  exact ⟨⟨hneed, hbuf⟩, hidle, hlength, hconn, fun hwrite harmed => hkind harmed hwrite⟩

end Sys2Proof.Machine
end

section
/-! What sets and clears `conn` and `chain` (10_state.md R33, R34). -/

namespace Sys2Proof.Machine

/-- `READ k` touches neither flag. -/
theorem requestRead_flags (k : Kind) (s : State) :
    (requestRead k s).conn = s.conn ∧ (requestRead k s).chain = s.chain := by
  rcases requestRead_cases k s with ⟨c, _, heq⟩ | ⟨_, _, heq⟩ <;> rw [heq] <;> exact ⟨rfl, rfl⟩

/-- `WRITE k` touches neither flag. -/
theorem requestWrite_flags (k : Kind) (s : State) :
    (requestWrite k s).conn = s.conn ∧ (requestWrite k s).chain = s.chain := by
  rcases requestWrite_cases k s with ⟨c, heq, _⟩ | ⟨p, _, _, _, _, heq⟩ <;> rw [heq] <;> exact ⟨rfl, rfl⟩

/-- From `s` to `t` the flags stay, but that an exchange of kind `k` may clear `chain` if `k` is Throttle, the last block
in chain order (45_session.md R283, R296). -/
def FlagsAfterExchange (k : Kind) (s t : State) : Prop :=
  t.conn = s.conn ∧ (t.chain = s.chain ∨ (k = .throttle ∧ t.chain = false))

/-- A chain step clears `chain` for Throttle only, when its request touches neither flag. -/
theorem chainStep_flags {request : Kind → State → State}
    (hrequest : ∀ (k : Kind) (s : State), (request k s).conn = s.conn ∧ (request k s).chain = s.chain)
    (k : Kind) (s : State) : FlagsAfterExchange k s (chainStep request k s) := by
  rcases chainStep_cases request k s with ⟨hk, heq⟩ | ⟨_, _, heq⟩ | ⟨k', _, _, heq⟩ <;> rw [heq]
  · exact ⟨rfl, .inr ⟨hk, rfl⟩⟩
  · exact ⟨rfl, .inl rfl⟩
  · obtain ⟨hconn, hchain⟩ := hrequest k' s
    exact ⟨hconn, .inl hchain⟩

/-- The flags after COMPLETE.READ. -/
theorem completeRead_flags {f : List Byte} {k : Kind} {s t : State} (hcomplete : completeRead f k s = .next t) :
    FlagsAfterExchange k s t := by
  obtain ⟨_, ⟨c, rfl⟩ | ⟨r, _, rfl⟩⟩ := completeRead_cases hcomplete
  · exact ⟨rfl, .inl rfl⟩
  · exact chainStep_flags requestRead_flags k (emit (.blockRead k) (storeSlot r s))

/-- The flags after COMPLETE.WRITE. -/
theorem completeWrite_flags {f : List Byte} {k : Kind} {s t : State} (hcomplete : completeWrite f k s = .next t) :
    FlagsAfterExchange k s t := by
  obtain ⟨_, ⟨_, rfl⟩ | ⟨_, _, rfl⟩ | ⟨v, _, _, _, ⟨_, rfl⟩ | ⟨_, rfl⟩⟩⟩ := completeWrite_cases hcomplete
  · exact ⟨rfl, .inl rfl⟩
  · exact chainStep_flags requestWrite_flags k (emit _ s)
  · exact ⟨rfl, .inl rfl⟩
  · exact chainStep_flags requestWrite_flags k (emit _ (raise _ s))

/-- FEED touches the flags only with the byte that completes an exchange. -/
theorem feedByte_flags {b : Byte} {s t : State} (hfeed : feedByte b s = .next t) :
    t.conn = s.conn ∧ (t.chain = s.chain ∨ (s.need = 1 ∧ s.ctx.kind = .throttle ∧ t.chain = false)) := by
  rcases feedByte_cases b s with ⟨_, heq⟩ | ⟨_, heq⟩ | ⟨hneed, heq⟩ <;> rw [heq] at hfeed
  · cases hfeed
    exact ⟨rfl, .inl rfl⟩
  · cases hfeed
    exact ⟨rfl, .inl rfl⟩
  · have hflags : FlagsAfterExchange s.ctx.kind { s with need := 0, buf := [] } t := by
      rcases complete_cases s.ctx (s.buf ++ [b]) { s with need := 0, buf := [] } with ⟨_, heq⟩ | ⟨_, heq⟩ <;>
        rw [heq] at hfeed
      · exact completeRead_flags hfeed
      · exact completeWrite_flags hfeed
    obtain ⟨hconn, hchain⟩ := hflags
    exact ⟨hconn, hchain.imp_right fun ⟨hk, hclear⟩ => ⟨hneed, hk, hclear⟩⟩

/-- CONNECT leaves the block connected; `chain` stays if it was connected before, and is cleared if not. -/
theorem connect_flags (s : State) :
    (connect s).conn = true ∧ ((connect s).chain = s.chain ∨ (connect s).chain = false) := by
  rcases connect_cases s with ⟨hconn, heq⟩ | ⟨_, heq⟩ <;> rw [heq]
  · exact ⟨hconn, .inl rfl⟩
  · exact ⟨rfl, .inr rfl⟩

/-- CLOSE leaves the block disconnected; `chain` stays if it was so before, and is cleared if not. -/
theorem close_flags (s : State) :
    (close s).conn = false ∧ ((close s).chain = s.chain ∨ (close s).chain = false) := by
  rcases close_cases s with ⟨hconn, heq⟩ | ⟨_, heq⟩ <;> rw [heq]
  · exact ⟨hconn, .inl rfl⟩
  · exact ⟨rfl, .inr rfl⟩

/-- `conn` after an input event (R34). -/
theorem exec_conn {i : Instr} {s t : State} (hi : isInputEvent i = true) (hexec : exec i s = .next t) :
    t.conn = s.conn ∨ (i = .connect ∧ t.conn = true) ∨ ((i = .close ∨ i = .tfail) ∧ t.conn = false) := by
  cases inputEffect_of_exec_next hi hexec with
  | connect => exact .inr (.inl ⟨rfl, (connect_flags s).1⟩)
  | close => exact .inr (.inr ⟨.inl rfl, (close_flags s).1⟩)
  | tfail => exact .inr (.inr ⟨.inr rfl, (close_flags _).1⟩)
  | readall => exact .inl (requestRead_flags .basic (setChain true s)).1
  | writeall => exact .inl (requestWrite_flags .basic (setChain true s)).1
  | loadprofile q => exact .inl rfl
  | feed b hfeed => exact .inl (feedByte_flags hfeed).1
  | read _ k => exact .inl (requestRead_flags k s).1
  | write _ k => exact .inl (requestWrite_flags k s).1
  | pure _ r => exact .inl rfl

/-- `chain` after an input event (R33). -/
theorem exec_chain {i : Instr} {s t : State} (hi : isInputEvent i = true) (hexec : exec i s = .next t) :
    t.chain = s.chain ∨ ((i = .readall ∨ i = .writeall) ∧ t.chain = true) ∨
    ((i = .close ∨ i = .tfail ∨ i = .connect ∨ ∃ b, i = .feed b ∧ s.need = 1 ∧ s.ctx.kind = .throttle) ∧
      t.chain = false) := by
  cases inputEffect_of_exec_next hi hexec with
  | connect => exact (connect_flags s).2.imp_right fun h => .inr ⟨.inr (.inr (.inl rfl)), h⟩
  | close => exact (close_flags s).2.imp_right fun h => .inr ⟨.inl rfl, h⟩
  | tfail => exact (close_flags (raise .eTransport s)).2.imp_right fun h => .inr ⟨.inr (.inl rfl), h⟩
  | readall => exact .inr (.inl ⟨.inl rfl, (requestRead_flags .basic (setChain true s)).2⟩)
  | writeall => exact .inr (.inl ⟨.inr rfl, (requestWrite_flags .basic (setChain true s)).2⟩)
  | loadprofile q => exact .inl rfl
  | feed b hfeed =>
    exact (feedByte_flags hfeed).2.imp_right fun ⟨hneed, hk, h⟩ => .inr ⟨.inr (.inr (.inr ⟨b, rfl, hneed, hk⟩)), h⟩
  | read _ k => exact .inl (requestRead_flags k s).2
  | write _ k => exact .inl (requestWrite_flags k s).2
  | pure _ r => exact .inl rfl

/-- Settles O57: a flag that changed did not stay, so it was set or cleared by an event of `exec_conn` or
`exec_chain`. -/
theorem whatChangesConnAndChain : Obligations.WhatChangesConnAndChain := by
  unfold Obligations.WhatChangesConnAndChain
  intro i s t hi hexec
  refine ⟨fun hs ht => ?_, fun hs ht => ?_, fun hs ht => ?_, fun hs ht => ?_⟩
  · rcases exec_conn hi hexec with hsame | ⟨hset, _⟩ | ⟨_, hclear⟩
    · simp [hs, ht] at hsame
    · exact hset
    · simp [ht] at hclear
  · rcases exec_conn hi hexec with hsame | ⟨_, hset⟩ | ⟨hclear, _⟩
    · simp [hs, ht] at hsame
    · simp [ht] at hset
    · exact hclear
  · rcases exec_chain hi hexec with hsame | ⟨hset, _⟩ | ⟨_, hclear⟩
    · simp [hs, ht] at hsame
    · exact hset
    · simp [ht] at hclear
  · rcases exec_chain hi hexec with hsame | ⟨_, hset⟩ | ⟨hclear, _⟩
    · simp [hs, ht] at hsame
    · simp [ht] at hset
    · exact hclear

end Sys2Proof.Machine
end

section
/-! Reset and what may come first, the transmit frames as instructions, the renderings (10_state.md R44, R40, R28,
R29). -/

namespace Sys2Proof.Machine

/-- Two spellings of one next state are one outcome of the model. -/
theorem next_congr {t u : State} (h : t = u) : (.next t : Host.Outcome State Fault Refusal) = .next u :=
  congrArg _ h

/-- While not connected the guard refuses with `W_NOT_CONNECTED`, before it looks at anything else
(45_session.md R286). -/
theorem guardCause_of_not_connected {s : State} (hconn : s.conn = false) : guardCause s = some .wNotConnected :=
  if_pos hconn

/-- `READ k` while not connected. -/
theorem requestRead_of_not_connected (k : Kind) {s : State} (hconn : s.conn = false) :
    requestRead k s = raise .wNotConnected s := by
  rw [requestRead, guardCause_of_not_connected hconn]

/-- `WRITE k` while not connected. -/
theorem requestWrite_of_not_connected (k : Kind) {s : State} (hconn : s.conn = false) :
    requestWrite k s = raise .wNotConnected s := by
  rw [requestWrite, guardCause_of_not_connected hconn]

/-- While the assembler is disarmed every input event gives a next state; a byte is stray (41_frame_assembler.md
R164). -/
theorem exec_next_of_idle {i : Instr} {s : State} (hi : isInputEvent i = true) (hneed : s.need = 0) :
    ∃ t, exec i s = .next t := by
  have heffect := exec_inputEffect hi s
  generalize exec i s = o at heffect
  cases heffect with
  | feed b hfeed =>
    rcases feedByte_cases b s with ⟨_, heq⟩ | ⟨harmed, _⟩ | ⟨harmed, _⟩
    · exact ⟨_, hfeed.symm.trans heq⟩
    · omega
    · omega
  | _ => exact ⟨_, rfl⟩

/-- Settles O1: `State.reset` is Idle and not connected. -/
theorem resetLeavesTheStatedValues : Obligations.ResetLeavesTheStatedValues := by
  unfold Obligations.ResetLeavesTheStatedValues
  refine ⟨rfl, rfl, rfl, rfl, rfl, rfl, rfl, rfl, rfl, fun i hi => exec_next_of_idle hi rfl, fun s hconn => ?_⟩
  have hchain : (setChain true s).conn = false := hconn
  constructor
  · have hread (k : Kind) := next_congr (requestRead_of_not_connected k hconn)
    have hwrite (k : Kind) := next_congr (requestWrite_of_not_connected k hconn)
    simp only [List.forall_mem_cons]
    exact ⟨hread .general, hread .basic, hread .pedalAssist, hread .throttle,
      hwrite .general, hwrite .basic, hwrite .pedalAssist, hwrite .throttle, List.forall_mem_nil _⟩
  · simp only [List.forall_mem_cons]
    exact ⟨next_congr (requestRead_of_not_connected .basic hchain),
      next_congr (requestWrite_of_not_connected .basic hchain), List.forall_mem_nil _⟩

/-- `send` written out as the record update it is. -/
theorem send_eq (f : List Byte) (s : State) : send f s = { s with out := s.out ++ [.tx f] } := rfl

/-- The bytes of a write request: command byte, block id, length, payload, checksum (30_encoding.md R93). -/
theorem wqFrame_eq (id length : Byte) (p : List Byte) (c : Byte) :
    wqFrame id length p c = 0x16#8 :: id :: length :: p ++ [c] := rfl

/-- Settles O49: each of the seven rows is the `send` of its frame. -/
theorem transmitFrameIsSentWhole : Obligations.TransmitFrameIsSentWhole := by
  unfold Obligations.TransmitFrameIsSentWhole
  have hsend (f : List Byte) (s : State) := next_congr (send_eq f s)
  have hwq (id length : Byte) (p : List Byte) (c : Byte) (s : State) :=
    wqFrame_eq id length p c ▸ hsend (wqFrame id length p c) s
  exact ⟨fun s => ⟨hsend _ s, hsend _ s, hsend _ s, hsend _ s⟩,
    fun p c s => ⟨hwq _ _ p c s, hwq _ _ p c s, hwq _ _ p c s⟩⟩

/-- The dotted rendering puts one full stop after every character that has another behind it (R29). -/
theorem renderDotted_cons_cons (a b : Byte) (t : List Byte) :
    renderDotted (a :: b :: t) = a :: 0x2E#8 :: renderDotted (b :: t) := rfl

/-- The last character has no full stop behind it. -/
theorem renderDotted_singleton (a : Byte) : renderDotted [a] = [a] := rfl

/-- Settles O22: the dotted form by its two equations, every other clause a row of its table. -/
theorem renderingsOfTextFields : Obligations.RenderingsOfTextFields := by
  unfold Obligations.RenderingsOfTextFields
  refine ⟨fun t => ?_, fun t => ?_, fun _ => rfl, fun _ => rfl, ⟨rfl, rfl, rfl, rfl, rfl, rfl⟩, rfl, fun _ => rfl,
    ⟨rfl, rfl, rfl⟩, ⟨rfl, rfl, rfl, rfl⟩, rfl, rfl⟩
  · simp only [text2Bytes, renderDotted_cons_cons, renderDotted_singleton]
  · simp only [text4Bytes, renderDotted_cons_cons, renderDotted_singleton]

end Sys2Proof.Machine
end

section
/-! What no instruction takes back or touches: the outputs given so far, the parameters, the pending events
(20_memory.md R71, 10_state.md R20, R42). Said as a relation between two states, so that it composes along the
operations an instruction runs. -/

namespace Sys2Proof.Machine

/-- From `s` to `t` outputs are only appended, and the parameters and the pending events stay. -/
structure State.Extends (s t : State) : Prop where
  out : s.out <+: t.out
  params : t.params = s.params
  input : t.input = s.input

/-- One operation after another. -/
theorem State.Extends.trans {s t u : State} (hst : s.Extends t) (htu : t.Extends u) : s.Extends u where
  out := hst.out.trans htu.out
  params := htu.params.trans hst.params
  input := htu.input.trans hst.input

/-- An update of the other fields: the profile, the session, the flags, the returned value. -/
theorem State.extends_of_same_outputs {s t : State} (hout : t.out = s.out) (hparams : t.params = s.params)
    (hinput : t.input = s.input) : s.Extends t where
  out := ⟨[], by rw [hout, List.append_nil]⟩
  params := hparams
  input := hinput

/-- Nothing done. -/
theorem State.extends_refl (s : State) : s.Extends s := State.extends_of_same_outputs rfl rfl rfl

/-- An output goes to the end of the history, whether a frame, an event or a record. -/
theorem extends_pushOut (o : Output) (s : State) : s.Extends (pushOut o s) where
  out := ⟨[o], rfl⟩
  params := rfl
  input := rfl

/-- Installing an expectation gives no output. -/
theorem extends_installExpectation (e : Nat) (c : Ctx) (s : State) : s.Extends (installExpectation e c s) :=
  State.extends_of_same_outputs rfl rfl rfl

/-- FRA.ARM raises a record, installs the expectation, or does the one before the other. -/
theorem extends_fraArm (e : Nat) (c : Ctx) (s : State) : s.Extends (fraArm e c s) := by
  rcases fraArm_cases e c s with ⟨_, heq⟩ | ⟨_, _, _, heq⟩ | ⟨_, _, _, heq⟩ <;> rw [heq]
  · exact extends_pushOut _ s
  · exact (extends_pushOut _ s).trans (extends_installExpectation e c _)
  · exact extends_installExpectation e c s

/-- `READ k` raises the guard's record, or sends and arms. -/
theorem extends_requestRead (k : Kind) (s : State) : s.Extends (requestRead k s) := by
  rcases requestRead_cases k s with ⟨c, _, heq⟩ | ⟨_, _, heq⟩ <;> rw [heq]
  · exact extends_pushOut (.log c) s
  · exact (extends_pushOut (.tx _) s).trans (extends_installExpectation _ _ _)

/-- `WRITE k` raises the record it is refused with, or sends and arms. -/
theorem extends_requestWrite (k : Kind) (s : State) : s.Extends (requestWrite k s) := by
  rcases requestWrite_cases k s with ⟨c, heq, _⟩ | ⟨p, _, _, _, _, heq⟩ <;> rw [heq]
  · exact extends_pushOut (.log c) s
  · exact (extends_pushOut (.tx _) s).trans (extends_installExpectation _ _ _)

/-- A chain step takes nothing back when its request does not. -/
theorem extends_chainStep {request : Kind → State → State}
    (hrequest : ∀ (k : Kind) (s : State), s.Extends (request k s)) (k : Kind) (s : State) :
    s.Extends (chainStep request k s) := by
  rcases chainStep_cases request k s with ⟨_, heq⟩ | ⟨_, _, heq⟩ | ⟨k', _, _, heq⟩ <;> rw [heq]
  · exact State.extends_of_same_outputs rfl rfl rfl
  · exact s.extends_refl
  · exact hrequest k' s

/-- COMPLETE.READ raises a record, or stores the block, reports it and makes the chain step. -/
theorem extends_completeRead {f : List Byte} {k : Kind} {s t : State} (hcomplete : completeRead f k s = .next t) :
    s.Extends t := by
  obtain ⟨_, ⟨c, rfl⟩ | ⟨r, _, rfl⟩⟩ := completeRead_cases hcomplete
  · exact extends_pushOut (.log c) s
  · have hstored : s.Extends (storeSlot r s) := State.extends_of_same_outputs rfl rfl rfl
    have hreported := hstored.trans (extends_pushOut (.ev (.blockRead k)) _)
    exact hreported.trans (extends_chainStep extends_requestRead k _)

/-- COMPLETE.WRITE raises a record, or reports the verdict, a rejection after its record, and may make the chain
step. -/
theorem extends_completeWrite {f : List Byte} {k : Kind} {s t : State} (hcomplete : completeWrite f k s = .next t) :
    s.Extends t := by
  have hchain (u : State) : u.Extends (chainStep requestWrite k u) := extends_chainStep extends_requestWrite k u
  obtain ⟨_, ⟨_, rfl⟩ | ⟨_, _, rfl⟩ | ⟨v, _, _, _, hrejected⟩⟩ := completeWrite_cases hcomplete
  · exact extends_pushOut _ s
  · exact (extends_pushOut _ s).trans (hchain _)
  · have hreported := (extends_pushOut (.log (.eWriteRejected k (byteAt f 1))) s).trans
      (extends_pushOut (.ev (.blockWritten k (some v))) _)
    obtain ⟨_, rfl⟩ | ⟨_, rfl⟩ := hrejected
    · exact hreported
    · exact hreported.trans (hchain _)

/-- FEED raises a record, counts the byte, or runs the completion step on the disarmed assembler. -/
theorem extends_feedByte {b : Byte} {s t : State} (hfeed : feedByte b s = .next t) : s.Extends t := by
  rcases feedByte_cases b s with ⟨_, heq⟩ | ⟨_, heq⟩ | ⟨_, heq⟩ <;> rw [heq] at hfeed
  · cases hfeed
    exact extends_pushOut _ s
  · cases hfeed
    exact State.extends_of_same_outputs rfl rfl rfl
  · have hdisarmed : s.Extends { s with need := 0, buf := [] } := State.extends_of_same_outputs rfl rfl rfl
    rcases complete_cases s.ctx (s.buf ++ [b]) { s with need := 0, buf := [] } with ⟨_, heq⟩ | ⟨_, heq⟩ <;>
      rw [heq] at hfeed
    · exact hdisarmed.trans (extends_completeRead hfeed)
    · exact hdisarmed.trans (extends_completeWrite hfeed)

/-- A received frame is one FEED after another; the bytes before the last must each give a next state. -/
theorem extends_feedBytes {bytes : List Byte} {s t : State} (hfeed : feedBytes bytes s = .next t) : s.Extends t := by
  induction bytes generalizing s with
  | nil =>
    cases hfeed
    exact State.extends_refl _
  | cons b rest ih =>
    rw [feedBytes] at hfeed
    split at hfeed
    next u hbyte => exact (extends_feedByte hbyte).trans (ih hfeed)
    next => cases hfeed
    next => cases hfeed

/-- CONNECT warns, or reports the transport, sends and arms. -/
theorem extends_connect (s : State) : s.Extends (connect s) := by
  rcases connect_cases s with ⟨_, heq⟩ | ⟨_, heq⟩ <;> rw [heq]
  · exact extends_pushOut _ s
  · have hready : s.Extends (setChain false (disarm (setConn true s))) := State.extends_of_same_outputs rfl rfl rfl
    have hsent := (hready.trans (extends_pushOut (.ev (.transportState true)) _)).trans
      (extends_pushOut (.tx (readRequest .general)) _)
    exact hsent.trans (extends_installExpectation _ _ _)

/-- CLOSE does nothing, or disarms and reports the transport. -/
theorem extends_close (s : State) : s.Extends (close s) := by
  rcases close_cases s with ⟨_, heq⟩ | ⟨_, heq⟩ <;> rw [heq]
  · exact s.extends_refl
  · have hclosed : s.Extends (setConn false (setChain false (disarm s))) := State.extends_of_same_outputs rfl rfl rfl
    exact hclosed.trans (extends_pushOut _ _)

/-- The input events, by the operation each runs. -/
theorem extends_of_inputEvent {i : Instr} {s t : State} (hi : isInputEvent i = true) (hexec : exec i s = .next t) :
    s.Extends t := by
  have hchain : s.Extends (setChain true s) := State.extends_of_same_outputs rfl rfl rfl
  cases inputEffect_of_exec_next hi hexec with
  | connect => exact extends_connect s
  | close => exact extends_close s
  | tfail => exact (extends_pushOut (.log .eTransport) s).trans (extends_close _)
  | readall => exact hchain.trans (extends_requestRead .basic _)
  | writeall => exact hchain.trans (extends_requestWrite .basic _)
  | loadprofile q => exact State.extends_of_same_outputs rfl rfl rfl
  | feed b hfeed => exact extends_feedByte hfeed
  | read _ k => exact extends_requestRead k s
  | write _ k => exact extends_requestWrite k s
  | pure _ r => exact State.extends_of_same_outputs rfl rfl rfl

/-- The instructions that are no input events: the internal operations and the frames of the wire. -/
theorem extends_of_not_inputEvent {i : Instr} {s t : State} (hi : isInputEvent i = false)
    (hexec : exec i s = .next t) : s.Extends t := by
  cases i with
  | fraArm e c =>
    cases hexec
    exact extends_fraArm e c s
  | fraCancel =>
    cases hexec
    exact State.extends_of_same_outputs rfl rfl rfl
  | completeRead f k => exact extends_completeRead hexec
  | completeWrite f k => exact extends_completeWrite hexec
  | rq5General | rq2Basic | rq2Pedal | rq2Throttle | wqBasic | wqPedal | wqThrottle =>
    cases hexec
    exact extends_pushOut (.tx _) s
  | rrGeneral | rrBasic | rrPedal | rrThrottle | waBasic | waPedal | waThrottle => exact extends_feedBytes hexec
  | _ => cases hi

/-- Every instruction, input event or not. -/
theorem extends_of_exec_next {i : Instr} {s t : State} (hexec : exec i s = .next t) : s.Extends t := by
  cases hi : isInputEvent i with
  | true => exact extends_of_inputEvent hi hexec
  | false => exact extends_of_not_inputEvent hi hexec

/-- Settles O56: `State.Extends`, with the outputs that were appended named. -/
theorem outputsOnlyGrow : Obligations.OutputsOnlyGrow := by
  unfold Obligations.OutputsOnlyGrow
  intro i s t hexec
  obtain ⟨⟨new, hout⟩, hparams, hinput⟩ := extends_of_exec_next hexec
  exact ⟨⟨new, hout.symm⟩, hparams, hinput⟩

end Sys2Proof.Machine
end

section
/-! Frames on the line: how the decoder reads each format (30_encoding.md R91 to R95), and back: what a decoded frame is
the encoding of. -/

namespace Sys2Proof.Machine

/-- Payload and checksum byte, found again in their concatenation. -/
theorem take_getD_concat {p : List Byte} {n : Nat} (hp : p.length = n) (c : Byte) :
    (p ++ [c]).take n = p ∧ (p ++ [c]).getD n 0#8 = c := by
  subst hp
  simp

/-- The other way round: a list of `n + 1` bytes is its first `n` and its last. -/
theorem take_concat_getD {body : List Byte} {n : Nat} (hbody : body.length = n + 1) :
    body.take n ++ [body.getD n 0#8] = body := by
  have hn : n < body.length := by omega
  rw [List.getD_eq_getElem _ _ hn, List.take_append_getElem, ← hbody, List.take_length]

/-- A well-formed write request carries `PLEN[k]` payload bytes (R93). -/
theorem plen_of_wellFormedWq {k : Kind} {p : List Byte} {c : Byte} (hwf : wellFormedWq k p c = true) :
    Config.plen k = some p.length :=
  of_decide_eq_true (Bool.and_eq_true_iff.mp hwf).1

/-- The shape of WQ.BASIC (R93). -/
theorem decodeWriteRequest_basic {body : List Byte} (hbody : body.length = 25) :
    decodeWriteRequest (0x52#8 :: 0x18#8 :: body) = .ok (.wqBasic (body.take 24) (body.getD 24 0#8)) :=
  if_pos ⟨rfl, rfl, hbody⟩

/-- The shape of WQ.PEDAL (R93). -/
theorem decodeWriteRequest_pedal {body : List Byte} (hbody : body.length = 12) :
    decodeWriteRequest (0x53#8 :: 0x0B#8 :: body) = .ok (.wqPedal (body.take 11) (body.getD 11 0#8)) :=
  if_pos ⟨rfl, rfl, hbody⟩

/-- The shape of WQ.THROTTLE (R93). -/
theorem decodeWriteRequest_throttle {body : List Byte} (hbody : body.length = 7) :
    decodeWriteRequest (0x54#8 :: 0x06#8 :: body) = .ok (.wqThrottle (body.take 6) (body.getD 6 0#8)) :=
  if_pos ⟨rfl, rfl, hbody⟩

/-- A format that reads the bytes after its head as `n` payload bytes and a checksum byte gets both back whole. -/
theorem decodeFrame_concat {head p : List Byte} {n : Nat} {wq : List Byte → Byte → Instr}
    (hformat : ∀ body, body.length = n + 1 →
      decodeFrame (head ++ body) = .ok (wq (body.take n) (body.getD n 0#8)))
    (hp : p.length = n) (c : Byte) : decodeFrame (head ++ p ++ [c]) = .ok (wq p c) := by
  obtain ⟨htake, hlast⟩ := take_getD_concat hp c
  have hdecode := hformat (p ++ [c]) (by simp [hp])
  rwa [htake, hlast, ← List.append_assoc] at hdecode

/-- Settles O4. A command and a constant frame decode by the decoder's tables; a write request and a read response by
the length that `Instr.wellFormed` gives them. -/
theorem decodeOfEncodeIsTheInstruction : Obligations.DecodeOfEncodeIsTheInstruction := by
  unfold Obligations.DecodeOfEncodeIsTheInstruction
  intro i e hwf hencode
  cases i with
  | fraArm | fraCancel | completeRead | completeWrite => cases hencode
  | wqBasic p c =>
    cases hencode
    have hp := Option.some.inj (plen_of_wellFormedWq hwf)
    exact decodeFrame_concat (head := [0x16#8, 0x52#8, 0x18#8]) (fun _ => decodeWriteRequest_basic) hp.symm c
  | wqPedal p c =>
    cases hencode
    have hp := Option.some.inj (plen_of_wellFormedWq hwf)
    exact decodeFrame_concat (head := [0x16#8, 0x53#8, 0x0B#8]) (fun _ => decodeWriteRequest_pedal) hp.symm c
  | wqThrottle p c =>
    cases hencode
    have hp := Option.some.inj (plen_of_wellFormedWq hwf)
    exact decodeFrame_concat (head := [0x16#8, 0x54#8, 0x06#8]) (fun _ => decodeWriteRequest_throttle) hp.symm c
  | rrGeneral | rrBasic | rrPedal | rrThrottle =>
    cases hencode
    have hlen := Nat.succ.inj (of_decide_eq_true hwf)
    exact if_pos hlen
  | waBasic | waPedal | waThrottle => cases hencode; rfl
  | rq5General | rq2Basic | rq2Pedal | rq2Throttle => cases hencode; rfl
  | connect | close | tfail | readall | writeall | loadprofile | feed => cases hencode; rfl
  | readInfo | readBasic | readPedal | readThrottle => cases hencode; rfl
  | writeInfo | writeBasic | writePedal | writeThrottle => cases hencode; rfl
  | csuSum | csuAppend | csuVerify | csuRxok => cases hencode; rfl
  | decGeneral | decBasic | decPedal | decThrottle => cases hencode; rfl
  | encBasic | encPedal | encThrottle => cases hencode; rfl
  | rctBasic | rctPedal | rctThrottle => cases hencode; rfl

/-- O4, of a frame. -/
theorem decodeFrame_of_encode {i : Instr} {bytes : List Byte} (hwf : i.wellFormed = true)
    (hencode : encode i = some (.frame bytes)) : decodeFrame bytes = .ok i :=
  decodeOfEncodeIsTheInstruction i _ hwf hencode

/-- Settles O7: each frame is the encoding of a well-formed instruction. -/
theorem frameBytesDecode : Obligations.FrameBytesDecode := by
  unfold Obligations.FrameBytesDecode
  exact ⟨decodeFrame_of_encode rfl rfl, decodeFrame_of_encode rfl rfl, decodeFrame_of_encode rfl rfl,
    decodeFrame_of_encode rfl rfl, decodeFrame_of_encode rfl rfl⟩

/-- A command of the port is encoded as the event it was decoded from (R121). -/
theorem encode_of_decodeCommand {c : Byte} {args : List Byte} {o : Operand} {i : Instr}
    (hdecode : decodeCommand c args o = .ok i) : encode i = some (.event ⟨c :: args, o⟩) := by
  unfold decodeCommand at hdecode
  split at hdecode <;> cases hdecode <;> rfl

/-- Every event of the port has one meaning at most. -/
theorem encode_of_decodeEvent {e : Event} {i : Instr} (hdecode : decodeEvent e = .ok i) :
    encode i = some (.event e) := by
  obtain ⟨words, o⟩ := e
  unfold decodeEvent at hdecode
  split at hdecode
  next => cases hdecode
  next c args hwords =>
    cases hwords
    split_ifs at hdecode
    exact encode_of_decodeCommand hdecode

/-- The four read requests are constants (R91, R92). -/
theorem encode_of_decodeReadRequest {rest : List Byte} {i : Instr} (hdecode : decodeReadRequest rest = .ok i) :
    encode i = some (.frame (0x11#8 :: rest)) := by
  unfold decodeReadRequest at hdecode
  split_ifs at hdecode with hrest hrest hrest hrest <;> (cases hdecode; rw [hrest]; rfl)

/-- Head, payload and checksum byte make up the frame they were read from. -/
theorem frame_take_getD {body : List Byte} {n : Nat} (hbody : body.length = n + 1) (head : List Byte) :
    some (Encoding.frame (head ++ body.take n ++ [body.getD n 0#8])) = some (.frame (head ++ body)) := by
  rw [List.append_assoc, take_concat_getD hbody]

/-- A write request is its head, its payload and its checksum byte (R93). -/
theorem encode_of_decodeWriteRequest {rest : List Byte} {i : Instr} (hdecode : decodeWriteRequest rest = .ok i) :
    encode i = some (.frame (0x16#8 :: rest)) := by
  unfold decodeWriteRequest at hdecode
  split at hdecode
  next id n body =>
    split_ifs at hdecode with hshape hshape hshape <;> obtain ⟨rfl, rfl, hbody⟩ := hshape <;> cases hdecode
    · exact frame_take_getD hbody [0x16#8, 0x52#8, 0x18#8]
    · exact frame_take_getD hbody [0x16#8, 0x53#8, 0x0B#8]
    · exact frame_take_getD hbody [0x16#8, 0x54#8, 0x06#8]
  next => cases hdecode

/-- The one byte of an acknowledgement after its block id is the result code. -/
theorem headD_of_length_one {rest : List Byte} (hlen : rest.length = 1) : [rest.headD 0#8] = rest := by
  obtain ⟨r, rfl⟩ := List.length_eq_one_iff.mp hlen
  rfl

/-- A response is its block id and the bytes after it (R94, R95). -/
theorem encode_of_decodeResponse {id : Byte} {rest : List Byte} {i : Instr}
    (hdecode : decodeResponse id rest = .ok i) : encode i = some (.frame (id :: rest)) := by
  have hack (hlen : rest.length = 1) : some (Encoding.frame [id, rest.headD 0#8]) = some (.frame (id :: rest)) := by
    rw [headD_of_length_one hlen]
  unfold decodeResponse at hdecode
  split_ifs at hdecode with hid hlen hid hread hlen hid hread hlen hid hread hlen <;> subst hid <;> cases hdecode
  · rfl
  · rfl
  · exact hack hlen
  · rfl
  · exact hack hlen
  · rfl
  · exact hack hlen

/-- Every frame has one meaning at most: its first byte says which format it is read as (R90, R111, R112). -/
theorem encode_of_decodeFrame {bytes : List Byte} {i : Instr} (hdecode : decodeFrame bytes = .ok i) :
    encode i = some (.frame bytes) := by
  unfold decodeFrame at hdecode
  split at hdecode
  next => cases hdecode
  next b rest =>
    split_ifs at hdecode with hread hwrite
    · rw [hread]
      exact encode_of_decodeReadRequest hdecode
    · rw [hwrite]
      exact encode_of_decodeWriteRequest hdecode
    · exact encode_of_decodeResponse hdecode

/-- Settles O5, for the events of the port and for the frames of the line. -/
theorem encodeOfDecodeIsTheEncoding : Obligations.EncodeOfDecodeIsTheEncoding := by
  unfold Obligations.EncodeOfDecodeIsTheEncoding
  intro e i hdecode
  cases e with
  | event e => exact encode_of_decodeEvent hdecode
  | frame bytes => exact encode_of_decodeFrame hdecode

end Sys2Proof.Machine
end

section
/-! The command words of the port: the 29 that R121 of 30_encoding.md assigns, and all others. -/

namespace Sys2Proof.Machine

/-- The words that R121 assigns, listed. -/
def commandWords : List Byte :=
  [0x00#8, 0x01#8, 0x02#8, 0x03#8, 0x04#8, 0x05#8, 0x06#8, 0x10#8, 0x11#8, 0x12#8, 0x13#8, 0x20#8, 0x21#8,
    0x22#8, 0x23#8, 0x30#8, 0x31#8, 0x32#8, 0x33#8, 0x50#8, 0x51#8, 0x52#8, 0x53#8, 0x61#8, 0x62#8, 0x63#8,
    0x71#8, 0x72#8, 0x73#8]

/-- The ranges of the table hold the listed words and no other. -/
theorem isCommandWord_iff (c : Byte) : isCommandWord c = true ↔ c ∈ commandWords := by
  simp only [isCommandWord, commandWords, Bool.or_eq_true, Bool.and_eq_true, decide_eq_true_eq, List.mem_cons,
    List.not_mem_nil, or_false, ← BitVec.toNat_inj, BitVec.toNat_ofNat]
  omega

/-- An event with another word is reserved, whatever comes with the word. -/
theorem decodeEvent_of_not_command {c : Byte} (hc : c ∉ commandWords) (args : List Byte) (o : Operand) :
    decodeEvent ⟨c :: args, o⟩ = .error (.reservedWord c) :=
  if_neg (mt (isCommandWord_iff c).mp hc)

/-- A reserved word only goes off the input: it "selects no operation, changes no state and produces no output"
(R121). -/
theorem step_of_reservedWord {s : State} {e : Event} {rest : List Event} {c : Byte} (hinput : s.input = e :: rest)
    (hdecode : decodeEvent e = .error (.reservedWord c)) : step s = .next (setInput rest s) := by
  simp only [step, hinput, hdecode]

/-- Internal operations have no encoding (R121). -/
theorem encode_of_isInternal {i : Instr} (hi : isInternal i = true) : encode i = none := by
  cases i with
  | fraArm | fraCancel | completeRead | completeWrite => rfl
  | _ => cases hi

/-- Settles O3. An internal operation decoded from an event would have that event as its encoding. -/
theorem commandWordsOfTheTable : Obligations.CommandWordsOfTheTable := by
  unfold Obligations.CommandWordsOfTheTable
  refine ⟨⟨rfl, rfl, rfl, rfl, rfl, fun _ => rfl, fun _ => rfl, rfl, rfl, rfl, rfl, rfl, rfl, rfl, rfl,
    fun _ => rfl, fun _ => rfl, fun _ => rfl, fun _ => rfl, fun _ => rfl, fun _ => rfl, fun _ => rfl, fun _ => rfl,
    fun _ => rfl, fun _ => rfl, fun _ => rfl, fun _ => rfl, fun _ => rfl, fun _ => rfl⟩, ?_, ?_⟩
  · intro c args o rest s hc hinput
    exact step_of_reservedWord hinput (decodeEvent_of_not_command hc args o)
  · intro i hi
    have hnone := encode_of_isInternal hi
    refine ⟨hnone, fun e hdecode => ?_⟩
    rw [encode_of_decodeEvent hdecode] at hnone
    cases hnone

end Sys2Proof.Machine
end

section
/-! Received frames: a frame on the line is one FEED per byte (30_encoding.md R123, 20_memory.md R62), and the last byte
of the frame a block is armed for runs the completion step. -/

namespace Sys2Proof.Machine

/-- A frame that starts with neither command byte is a response, and a response is fed byte by byte. -/
theorem exec_eq_feedBytes {i : Instr} {bytes : List Byte} (hencode : encode i = some (.frame bytes))
    (hread : bytes.head? ≠ some 0x11#8) (hwrite : bytes.head? ≠ some 0x16#8) (s : State) :
    exec i s = feedBytes bytes s := by
  cases i with
  | rrGeneral | rrBasic | rrPedal | rrThrottle => cases hencode; rfl
  | waBasic | waPedal | waThrottle => cases hencode; rfl
  | rq5General | rq2Basic | rq2Pedal | rq2Throttle => cases hencode; exact absurd rfl hread
  | wqBasic | wqPedal | wqThrottle => cases hencode; exact absurd rfl hwrite
  | _ => cases hencode

/-- A run of any machine ends with a fault of its first step. -/
theorem run_succ_of_fault {M : Host.Core} {n : Nat} {s : M.State} {r : M.Fault} (hstep : M.step s = .fault r) :
    M.run (n + 1) s = .fault r := by
  simp only [Host.Core.run, hstep]

/-- A run of any machine ends with a refusal of its first step. -/
theorem run_succ_of_refused {M : Host.Core} {n : Nat} {s : M.State} {r : M.Refusal} (hstep : M.step s = .refused r) :
    M.run (n + 1) s = .refused r := by
  simp only [Host.Core.run, hstep]

/-- The machine over the FEED events of some bytes, `rest` pending behind them. -/
theorem run_rxEvents (bytes : List Byte) (rest : List Event) (s : State) :
    core.run bytes.length (setInput (rxEvents bytes ++ rest) s) = feedBytes bytes (setInput rest s) := by
  induction bytes generalizing s with
  | nil => rfl
  | cons b bytes ih =>
    have hstep : step (setInput (rxEvents (b :: bytes) ++ rest) s)
        = mapNext (setInput (rxEvents bytes ++ rest)) (feedByte b s) := by
      rw [← feedByte_setInput]
      exact step_feed rfl
    have hfeed := feedByte_setInput b rest s
    rw [feedBytes, hfeed]
    cases hbyte : feedByte b s with
    | next t =>
      rw [hbyte] at hstep
      exact (run_succ_next hstep).trans (ih t)
    | fault r =>
      rw [hbyte] at hstep
      exact run_succ_of_fault (M := core) hstep
    | refused r =>
      rw [hbyte] at hstep
      exact run_succ_of_refused (M := core) hstep

/-- Settles O39: both sides are `feedBytes` of the frame. -/
theorem receivedFrameIsItsBytesInOrder : Obligations.ReceivedFrameIsItsBytesInOrder := by
  unfold Obligations.ReceivedFrameIsItsBytesInOrder
  intro i bytes rest s hencode hread hwrite
  exact (run_rxEvents bytes rest s).trans (exec_eq_feedBytes hencode hread hwrite (setInput rest s)).symm

/-- After a byte that gives a next state the others are fed to it. -/
theorem feedBytes_cons_of_next {b : Byte} {rest : List Byte} {s t : State} (hbyte : feedByte b s = .next t) :
    feedBytes (b :: rest) s = feedBytes rest t := by
  rw [feedBytes, hbyte]

/-- One byte. -/
theorem feedBytes_singleton (b : Byte) (s : State) : feedBytes [b] s = feedByte b s := by
  rw [feedBytes]
  cases feedByte b s <;> rfl

/-- Exactly the bytes a block is armed for: all but the last are only counted, the last runs the completion step on the
whole frame, the assembler disarmed (41_frame_assembler.md R166). -/
theorem feedBytes_completing {bytes : List Byte} {s : State} (hbytes : bytes ≠ []) (hneed : s.need = bytes.length) :
    feedBytes bytes s = complete s.ctx (s.buf ++ bytes) (disarm s) := by
  induction bytes generalizing s with
  | nil => exact absurd rfl hbytes
  | cons b rest ih =>
    rw [List.length_cons] at hneed
    rcases feedByte_cases b s with ⟨hidle, _⟩ | ⟨hmore, heq⟩ | ⟨hlast, heq⟩
    · omega
    · have hrest : rest ≠ [] := List.length_pos_iff.mp (by omega)
      have hcount : (acceptByte b s).need = rest.length := by rw [acceptByte_need]; omega
      rw [feedBytes_cons_of_next heq, ih hrest hcount, acceptByte_buf, memWrite_at_end, List.append_assoc]
      rfl
    · have hrest : rest = [] := List.length_eq_zero_iff.mp (by omega)
      rw [hrest, feedBytes_singleton, heq]
      rfl

/-- The same with an empty buffer. -/
theorem feedBytes_frame {f : List Byte} {c : Ctx} {s : State} (hf : f ≠ []) (hneed : s.need = f.length)
    (hctx : s.ctx = c) (hbuf : s.buf = []) : feedBytes f s = complete c f { s with need := 0 } := by
  have hdisarm : disarm s = { s with need := 0 } := by rw [disarm, ← hbuf]
  have hfeed := feedBytes_completing hf hneed
  rwa [hctx, hbuf, List.nil_append, hdisarm] at hfeed

/-- Without chain mode a chain step does nothing, at the last block in chain order either. -/
theorem chainStep_of_chain_false (request : Kind → State → State) (k : Kind) {s : State}
    (hchain : s.chain = false) : chainStep request k s = s := by
  rcases chainStep_cases request k s with ⟨_, heq⟩ | ⟨_, _, heq⟩ | ⟨_, _, hset, _⟩
  · rw [heq, setChain, ← hchain]
  · exact heq
  · rw [hchain] at hset
    cases hset

/-- A whole read response, without verification and without chain: its record goes to its slot and is reported (R296).
The decoder and the slot are those of the kind. -/
theorem feedBytes_readResponse {α : Type} {k : Kind} {f : List Byte} {s : State} {dec : List Byte → Option α}
    {slot : α → Record} (hdec : decodeBlock k f = (dec f).map slot) (hverify : s.params.verifyRx = false)
    (hchain : s.chain = false) (hbuf : s.buf = []) (hlen : f.length = Config.len k) (hneed : s.need = Config.len k)
    (hctx : s.ctx = ⟨.read, k⟩) (hid : byteAt f 0 = Config.blockId k) :
    ∃ r, dec f = some r ∧ feedBytes f s = .next { s with
      prf := storeRecord s.prf (slot r), need := 0, out := s.out ++ [.ev (.blockRead k)] } := by
  obtain ⟨record, hrecord⟩ := decodeBlock_of_length hlen
  obtain ⟨r, hr, rfl⟩ := Option.map_eq_some_iff.mp (hdec ▸ hrecord)
  have hf : f ≠ [] := List.length_pos_iff.mp (by have := len_legal k; omega)
  have hcomplete := completeRead_accepted (s := { s with need := 0 }) hrecord
    (fun h => by rw [hverify] at h; cases h) hid
  have hstay := chainStep_of_chain_false requestRead k
    (s := emit (.blockRead k) (storeSlot (slot r) { s with need := 0 })) hchain
  exact ⟨r, hr, (feedBytes_frame hf (hneed.trans hlen.symm) hctx hbuf).trans (hcomplete.trans (next_congr hstay))⟩

/-- Settles O46: `feedBytes_readResponse` for each of the four kinds. -/
theorem readResponseFillsItsSlot : Obligations.ReadResponseFillsItsSlot := by
  unfold Obligations.ReadResponseFillsItsSlot
  intro rest s hverify hchain hbuf
  refine ⟨fun hlen hneed hctx => ?_, fun hlen hneed hctx => ?_, fun hlen hneed hctx => ?_,
    fun hlen hneed hctx => ?_⟩
  · exact feedBytes_readResponse (k := .general) (dec := decodeGeneral) (slot := .general) rfl hverify hchain hbuf
      (congrArg (· + 1) hlen) hneed hctx rfl
  · exact feedBytes_readResponse (k := .basic) (dec := decodeBasic) (slot := .basic) rfl hverify hchain hbuf
      (congrArg (· + 1) hlen) hneed hctx rfl
  · exact feedBytes_readResponse (k := .pedalAssist) (dec := decodePedal) (slot := .pedal) rfl hverify hchain hbuf
      (congrArg (· + 1) hlen) hneed hctx rfl
  · exact feedBytes_readResponse (k := .throttle) (dec := decodeThrottle) (slot := .throttle) rfl hverify hchain hbuf
      (congrArg (· + 1) hlen) hneed hctx rfl

/-- COMPLETE.WRITE on an acknowledgement with a failure code, without chain: `P_WFAIL_ADVANCE` has nothing to
advance. -/
theorem completeWrite_failure_of_chain_false {f : List Byte} {k : Kind} {v : Verdict} {s : State}
    (hlen : f.length = Config.ackLen) (hid : byteAt f 0 = Config.blockId k)
    (hv : rctVerdict k (byteAt f 1) = some v) (hfailure : v ≠ .success) (hchain : s.chain = false) :
    completeWrite f k s
      = .next (emit (.blockWritten k (some v)) (raise (.eWriteRejected k (byteAt f 1)) s)) := by
  have hstay := chainStep_of_chain_false requestWrite k
    (s := emit (.blockWritten k (some v)) (raise (.eWriteRejected k (byteAt f 1)) s)) hchain
  rw [completeWrite_failure s hlen hid hv hfailure]
  simp only [hstay, ite_self]

/-- A whole acknowledgement, without chain: the write is over, reported as done on the success code, and otherwise
logged and reported as rejected (R298, R299). -/
theorem feedBytes_acknowledgement {k : Kind} {c code : Byte} {v : Verdict} {s : State}
    (hv : rctVerdict k c = some v) (hsuccess : v = .success ↔ c = code) (hchain : s.chain = false) (hbuf : s.buf = [])
    (hneed : s.need = 2) (hctx : s.ctx = ⟨.write, k⟩) :
    feedBytes [Config.blockId k, c] s = .next { s with need := 0, out := s.out ++
      if c = code then [.ev (.blockWritten k none)]
      else [.log (.eWriteRejected k c), .ev (.blockWritten k (some v))] } := by
  refine (feedBytes_frame (List.cons_ne_nil _ _) hneed hctx hbuf).trans ?_
  by_cases hc : c = code
  · rw [if_pos hc]
    rw [hsuccess.mpr hc] at hv
    exact (completeWrite_success _ rfl rfl hv).trans (next_congr (chainStep_of_chain_false _ _ hchain))
  · rw [if_neg hc, List.append_cons]
    exact completeWrite_failure_of_chain_false rfl rfl hv (mt hsuccess.mp hc) hchain

/-- Of the codes of R262 in 44_result_code.md only 24 is a success. -/
theorem rctBasic_eq_success_iff (c : Byte) : rctBasic c = .success ↔ c = 0x18#8 := by
  rw [← BitVec.toNat_inj]
  unfold rctBasic
  split <;> simp_all

/-- Of the codes of R264 only 11 is a success. -/
theorem rctPedal_eq_success_iff (c : Byte) : rctPedal c = .success ↔ c = 0x0B#8 := by
  rw [← BitVec.toNat_inj]
  unfold rctPedal
  split <;> simp_all

/-- Of the codes of R266 only 6 is a success. -/
theorem rctThrottle_eq_success_iff (c : Byte) : rctThrottle c = .success ↔ c = 0x06#8 := by
  rw [← BitVec.toNat_inj]
  unfold rctThrottle
  split <;> simp_all

/-- Settles O47: `feedBytes_acknowledgement` for each kind, its verdict read off the code. -/
theorem acknowledgementEndsTheWrite : Obligations.AcknowledgementEndsTheWrite := by
  unfold Obligations.AcknowledgementEndsTheWrite
  intro c s hchain hbuf hneed
  refine ⟨fun hctx => ?_, fun hctx => ?_, fun hctx => ?_⟩
  · exact feedBytes_acknowledgement (k := .basic) rfl (rctBasic_eq_success_iff c) hchain hbuf hneed hctx
  · exact feedBytes_acknowledgement (k := .pedalAssist) rfl (rctPedal_eq_success_iff c) hchain hbuf hneed hctx
  · exact feedBytes_acknowledgement (k := .throttle) rfl (rctThrottle_eq_success_iff c) hchain hbuf hneed hctx

end Sys2Proof.Machine
end

section
/-! The checksum unit (40_checksum.md): the checksum as an unbounded sum and as a run of byte additions, and what the
four operations answer for a list with a byte put at its end. -/

namespace Sys2Proof.Machine

/-- Reordering bytes keeps their sum. -/
theorem byteSum_perm {f g : List Byte} (h : f.Perm g) : byteSum f = byteSum g :=
  (h.map BitVec.toNat).sum_eq

/-- An addition of bytes wraps as the remainder of the unbounded sum does, from any start value. -/
theorem foldl_add_eq_add_byteSum (acc : Byte) (b : List Byte) :
    b.foldl (· + ·) acc = acc + BitVec.ofNat 8 (byteSum b) := by
  induction b generalizing acc with
  | nil => exact (BitVec.add_zero acc).symm
  | cons a rest ih =>
    rw [List.foldl_cons, ih, byteSum_cons, BitVec.ofNat_add, BitVec.ofNat_toNat, BitVec.setWidth_eq, BitVec.add_assoc]

/-- The byte a sum modulo 256 stands for is told by its value (00_scope.md R7). -/
theorem eq_ofNat_mod_iff (c : Byte) (n : Nat) : c = BitVec.ofNat 8 (n % 256) ↔ c.toNat = n % 256 := by
  rw [← BitVec.toNat_inj, BitVec.toNat_ofNat, Nat.mod_mod]

/-- The value of the checksum byte (R142). -/
theorem csuSum_toNat (b : List Byte) : (csuSum b).toNat = byteSum (b.drop 1) % 256 :=
  (eq_ofNat_mod_iff _ _).mp rfl

/-- The checksum as an 8-bit accumulator (R141). -/
theorem csuSum_eq_foldl (b : List Byte) : csuSum b = (b.drop 1).foldl (· + ·) 0#8 := by
  rw [foldl_add_eq_add_byteSum, BitVec.zero_add, ← BitVec.toNat_inj, csuSum_toNat, BitVec.toNat_ofNat]

/-- The first byte is left out and the order of the others does not count. -/
theorem csuSum_cons_perm (a b : Byte) {f g : List Byte} (h : f.Perm g) : csuSum (a :: f) = csuSum (b :: g) :=
  congrArg (fun n => BitVec.ofNat 8 (n % 256)) (byteSum_perm h)

/-- A byte put after the first one is added to the checksum. -/
theorem csuSum_concat {b : List Byte} (hb : b ≠ []) (c : Byte) : csuSum (b ++ [c]) = csuSum b + c := by
  have hdrop : (b ++ [c]).drop 1 = b.drop 1 ++ [c] := List.drop_append_of_le_length (List.length_pos_iff.mpr hb)
  rw [csuSum_eq_foldl, hdrop, List.foldl_concat, ← csuSum_eq_foldl]

/-- A byte alone is covered by no checksum. -/
theorem csuSum_singleton (a : Byte) : csuSum [a] = 0#8 := rfl

/-- The second of two appended checksums covers the first, and so doubles it. -/
theorem csuAppend_csuAppend {b : List Byte} (hb : b ≠ []) :
    csuAppend (csuAppend b) = b ++ [csuSum b, BitVec.ofNat 8 (2 * (csuSum b).toNat)] := by
  have hdouble : csuSum (b ++ [csuSum b]) = BitVec.ofNat 8 (2 * (csuSum b).toNat) := by
    rw [csuSum_concat hb, Nat.two_mul, BitVec.ofNat_add, BitVec.ofNat_toNat, BitVec.setWidth_eq]
  rw [csuAppend, csuAppend, hdouble, List.append_assoc]
  rfl

/-- The last byte and the bytes before it, as CSU.VERIFY and CSU.RXOK address them. -/
theorem byteAt_last_take_init (b : List Byte) (c : Byte) :
    byteAt (b ++ [c]) ((b ++ [c]).length - 1) = c ∧ (b ++ [c]).take ((b ++ [c]).length - 1) = b := by
  rw [List.length_append, List.length_singleton, Nat.add_sub_cancel]
  exact (take_getD_concat rfl c).symm

/-- CSU.VERIFY compares the last byte with the checksum of the bytes before it (R145). -/
theorem csuVerify_concat (b : List Byte) (c : Byte) : csuVerify (b ++ [c]) = decide (c = csuSum b) := by
  obtain ⟨hlast, hinit⟩ := byteAt_last_take_init b c
  have hlong : ¬ (b ++ [c]).length = 0 := by simp
  rw [csuVerify, if_neg hlong, hlast, hinit]

/-- CSU.VERIFY accepts a list with its own checksum at the end. -/
theorem csuVerify_csuAppend (b : List Byte) : csuVerify (csuAppend b) = true := by
  rw [csuAppend, csuVerify_concat, decide_eq_true rfl]

/-- Only the bytes from offset 1 on are verified, in any order. -/
theorem csuVerify_cons_perm (a b : Byte) {f g : List Byte} (h : f.Perm g) (c : Byte) :
    csuVerify (a :: f ++ [c]) = csuVerify (b :: g ++ [c]) := by
  rw [csuVerify_concat, csuVerify_concat, csuSum_cons_perm a b h]

/-- CSU.RXOK splits its list as CSU.VERIFY does, and sums from the offset it is given (R147). -/
theorem csuRxok_concat (from_ : SumFrom) {b : List Byte} (hb : b ≠ []) (c : Byte) :
    csuRxok from_ (b ++ [c]) = decide (c.toNat = byteSum (b.drop from_.offset) % 256) := by
  obtain ⟨hlast, hinit⟩ := byteAt_last_take_init b c
  have hlong : ¬ (b ++ [c]).length < 2 := by
    have hpos : 0 < b.length := List.length_pos_iff.mpr hb
    simp only [List.length_append, List.length_singleton]
    omega
  rw [csuRxok, if_neg hlong, hlast, hinit]
  exact decide_eq_decide.mpr (eq_ofNat_mod_iff c _)

/-- With `P_RX_SUM_FROM` = 1 an inbound frame is verified as CSU.VERIFY does. -/
theorem csuRxok_one {b : List Byte} (hb : b ≠ []) (c : Byte) : csuRxok .one (b ++ [c]) = csuVerify (b ++ [c]) := by
  rw [csuRxok_concat .one hb, csuVerify_concat]
  exact decide_eq_decide.mpr (eq_ofNat_mod_iff c _).symm

/-- CSU.SUM returns its value and changes nothing else (R120 of 30_encoding.md, as for the three below). -/
theorem exec_csuSum (b : List Byte) (s : State) :
    exec (.csuSum b) s = .next { s with ret := some (.byte (csuSum b)) } := rfl

/-- CSU.APPEND returns the new list (R143). -/
theorem exec_csuAppend (b : List Byte) (s : State) :
    exec (.csuAppend b) s = .next { s with ret := some (.bytes (csuAppend b)) } := rfl

/-- CSU.VERIFY returns its flag (R145). -/
theorem exec_csuVerify (g : List Byte) (s : State) :
    exec (.csuVerify g) s = .next { s with ret := some (.flag (csuVerify g)) } := rfl

/-- CSU.RXOK returns its flag, under the parameter of the state (R147). -/
theorem exec_csuRxok (f : List Byte) (s : State) :
    exec (.csuRxok f) s = .next { s with ret := some (.flag (csuRxok s.params.rxSumFrom f)) } := rfl

/-- Settles O9: the accumulator is `csuSum_eq_foldl`, the independence `csuSum_cons_perm`. -/
theorem checksumIsAnAccumulator : Obligations.ChecksumIsAnAccumulator := by
  unfold Obligations.ChecksumIsAnAccumulator
  exact ⟨csuSum_eq_foldl, fun a b _ _ h => csuSum_cons_perm a b h, rfl, csuSum_singleton⟩

/-- Settles O8: the byte returned is `csuSum f`, its value `csuSum_toNat`. -/
theorem checksumIsTheSumModulo256 : Obligations.ChecksumIsTheSumModulo256 := by
  unfold Obligations.ChecksumIsTheSumModulo256
  exact fun f s => ⟨csuSum f, csuSum_toNat f, exec_csuSum f s⟩

/-- Settles O10: for the empty list the first checksum appended stands at offset 0, so the second leaves it out. -/
theorem appendReturnsTheListWithItsChecksum : Obligations.AppendReturnsTheListWithItsChecksum := by
  unfold Obligations.AppendReturnsTheListWithItsChecksum
  exact ⟨exec_csuAppend, fun _ hb => csuAppend_csuAppend hb, rfl, rfl, fun _ => rfl⟩

/-- Settles O11: `csuVerify_concat`, with one byte before the last or none as its smallest cases. -/
theorem verifyComparesTheLastByte : Obligations.VerifyComparesTheLastByte := by
  unfold Obligations.VerifyComparesTheLastByte
  refine ⟨fun b c s => ?_, fun s => exec_csuVerify [] s, fun b s => ?_, fun a => csuVerify_concat [] a,
    fun a c => csuVerify_concat [a] c, fun a b g c => csuVerify_cons_perm a b (.refl g) c,
    fun a _ _ c h => csuVerify_cons_perm a a h c⟩
  · rw [exec_csuVerify, csuVerify_concat]
  · rw [exec_csuVerify, csuVerify_csuAppend]

/-- Settles O12: `csuRxok_concat` at either offset; for fewer than two bytes the flag is whatever `csuRxok` is there
(log entry 7). -/
theorem rxokSumsFromTheParameter : Obligations.RxokSumsFromTheParameter := by
  unfold Obligations.RxokSumsFromTheParameter
  refine ⟨fun b c s hb hfrom => ?_, fun b c s hb hfrom => ⟨?_, ?_⟩, fun f s _ => ⟨_, exec_csuRxok f s⟩⟩
  · rw [exec_csuRxok, hfrom, csuRxok_concat .zero hb]
    rfl
  · rw [exec_csuRxok, hfrom, csuRxok_concat .one hb]
    rfl
  · rw [exec_csuRxok, exec_csuVerify, hfrom, csuRxok_one hb]

end Sys2Proof.Machine
end

section
/-! The frame reassembler (41_frame_assembler.md): FEED by `need`, said as one equation per case, and what a list of
bytes does while the block is not armed and while it is armed for more of them. -/

namespace Sys2Proof.Machine

/-- Not armed: the byte is logged as stray (R164). -/
theorem feedByte_of_idle {s : State} (hneed : s.need = 0) (b : Byte) : feedByte b s = .next (raise (.wStray b) s) := by
  rcases feedByte_cases b s with ⟨_, heq⟩ | ⟨_, _⟩ | ⟨_, _⟩
  · exact heq
  · omega
  · omega

/-- Armed for more than one byte: the byte is appended and counted (R163). -/
theorem feedByte_of_more {s : State} (hneed : 1 < s.need) (b : Byte) :
    feedByte b s = .next { s with buf := s.buf ++ [b], need := s.need - 1 } := by
  rcases feedByte_cases b s with ⟨_, _⟩ | ⟨_, heq⟩ | ⟨_, _⟩
  · omega
  · rw [heq, acceptByte, memWrite_at_end]
  · omega

/-- Armed for one byte: that byte alone is the list `feedBytes_completing` speaks of (R165). -/
theorem feedByte_of_last {s : State} (hneed : s.need = 1) (b : Byte) :
    feedByte b s = complete s.ctx (s.buf ++ [b]) (disarm s) := by
  rw [← feedBytes_singleton]
  exact feedBytes_completing (List.cons_ne_nil b []) hneed

/-- In the context of a read the completion step is COMPLETE.READ of its kind (R165). -/
theorem complete_eq_exec_completeRead {c : Ctx} {k : Kind} (hctx : c = ⟨.read, k⟩) (f : List Byte) (s : State) :
    complete c f s = exec (.completeRead f k) s := by
  rw [hctx]
  rfl

/-- In the context of a write it is COMPLETE.WRITE. -/
theorem complete_eq_exec_completeWrite {c : Ctx} {k : Kind} (hctx : c = ⟨.write, k⟩) (f : List Byte) (s : State) :
    complete c f s = exec (.completeWrite f k) s := by
  rw [hctx]
  rfl

/-- Settles O35: the three cases of `fraArm_cases`, each under the hypotheses that exclude the other two. -/
theorem armInstallsTheExpectation : Obligations.ArmInstallsTheExpectation := by
  unfold Obligations.ArmInstallsTheExpectation
  intro e c s
  rcases fraArm_cases e c s with ⟨hillegal, heq⟩ | ⟨hpos, hle, harmed, heq⟩ | ⟨hpos, hle, hidle, heq⟩
  · exact ⟨fun _ _ _ => by omega, fun _ _ _ => by omega, fun _ => next_congr heq⟩
  · exact ⟨fun _ _ _ => by omega, fun _ _ _ => next_congr heq, fun _ => by omega⟩
  · exact ⟨fun _ _ _ => next_congr heq, fun _ _ _ => by omega, fun _ => by omega⟩

/-- Settles O36: FRA.CANCEL is `disarm`, written out. -/
theorem cancelDiscardsThePartialFrame : Obligations.CancelDiscardsThePartialFrame := by
  unfold Obligations.CancelDiscardsThePartialFrame
  exact fun _ => rfl

/-- Settles O37: the three equations of `feedByte`, the completing one read off the context. -/
theorem feedStrayAcceptedOrCompleting : Obligations.FeedStrayAcceptedOrCompleting := by
  unfold Obligations.FeedStrayAcceptedOrCompleting
  intro b s
  refine ⟨fun hidle => feedByte_of_idle hidle b, fun hmore => feedByte_of_more hmore b, fun k hlast hctx => ?_,
    fun k hlast hctx => ?_⟩
  · exact (feedByte_of_last hlast b).trans (complete_eq_exec_completeRead hctx _ _)
  · exact (feedByte_of_last hlast b).trans (complete_eq_exec_completeWrite hctx _ _)

/-- Fewer bytes than the block is armed for are only appended and counted (R166 (a)). -/
theorem feedBytes_buffering {bytes : List Byte} {s : State} (hneed : bytes.length < s.need) :
    feedBytes bytes s = .next { s with buf := s.buf ++ bytes, need := s.need - bytes.length } := by
  induction bytes generalizing s with
  | nil => rw [List.append_nil]; rfl
  | cons b rest ih =>
    rw [List.length_cons] at hneed
    have hmore : 1 < s.need := by omega
    have hrest : rest.length < s.need - 1 := by omega
    rw [feedBytes_cons_of_next (feedByte_of_more hmore b), ih hrest]
    simp only [List.append_assoc, List.singleton_append, List.length_cons, Nat.sub_sub, Nat.add_comm]

/-- Settles O38: the machine's steps are `feedBytes` of the list, which buffers it or, at its last byte, completes. -/
theorem feedingExactlyTheExpectedBytes : Obligations.FeedingExactlyTheExpectedBytes := by
  unfold Obligations.FeedingExactlyTheExpectedBytes
  intro bytes rest s
  have hrun := run_rxEvents bytes rest s
  refine ⟨fun hfewer => ?_, fun k hbytes hneed hctx => ?_, fun k hbytes hneed hctx => ?_⟩
  · exact hrun.trans (feedBytes_buffering (s := setInput rest s) hfewer)
  · have hcomplete := feedBytes_completing (s := setInput rest s) hbytes hneed
    exact hrun.trans (hcomplete.trans (complete_eq_exec_completeRead hctx _ _))
  · have hcomplete := feedBytes_completing (s := setInput rest s) hbytes hneed
    exact hrun.trans (hcomplete.trans (complete_eq_exec_completeWrite hctx _ _))

/-- While the block is not armed every byte is stray; the record it leaves does not arm it (R164). -/
theorem feedBytes_of_idle {s : State} (hneed : s.need = 0) (bytes : List Byte) :
    feedBytes bytes s = .next { s with out := s.out ++ bytes.map fun b => .log (.wStray b) } := by
  induction bytes generalizing s with
  | nil => rw [List.map_nil, List.append_nil]; rfl
  | cons b rest ih =>
    have hstill : (raise (.wStray b) s).need = 0 := hneed
    rw [feedBytes_cons_of_next (feedByte_of_idle hneed b), ih hstill, List.map_cons, List.append_cons]
    rfl

/-- Settles O48: a response is its bytes fed in order, and each of them is stray. -/
theorem responseWhileIdleIsStray : Obligations.ResponseWhileIdleIsStray := by
  unfold Obligations.ResponseWhileIdleIsStray
  intro i bytes s hneed hencode hread hwrite
  exact (exec_eq_feedBytes hencode hread hwrite s).trans (feedBytes_of_idle hneed bytes)

end Sys2Proof.Machine
end

section
/-! Nothing stops the machine (41_frame_assembler.md R160, 45_session.md R307 (f)): under the invariants of 10_state.md
R36 the completion steps are run inside their domain only, so the one stop left is that of an event that is no input
event (log entry 3). -/

namespace Sys2Proof.Machine

/-- The last byte makes the frame exactly as long as its completion step is stated for, and a write frame is not one
of General: R36 (c) and (e). -/
theorem State.Inv.feedByte_next {s : State} (hs : s.Inv) (b : Byte) : ∃ t, feedByte b s = .next t := by
  rcases feedByte_cases b s with ⟨_, heq⟩ | ⟨_, heq⟩ | ⟨hlast, heq⟩
  · exact ⟨_, heq⟩
  · exact ⟨_, heq⟩
  · have harmed : 0 < s.need := by omega
    have hlen : (s.buf ++ [b]).length = expectedLen s.ctx := by
      rw [List.length_append, List.length_singleton, ← hs.armedLength harmed, hlast]
    rw [heq]
    have hdirs := complete_cases s.ctx (s.buf ++ [b]) { s with need := 0, buf := [] }
    rcases hdirs with ⟨hdir, hstep⟩ | ⟨hdir, hstep⟩
    · rw [expectedLen, hdir] at hlen
      rw [hstep]
      exact completeRead_next _ hlen
    · rw [expectedLen, hdir] at hlen
      rw [hstep]
      exact completeWrite_next _ hlen (hs.armedWriteKind harmed hdir)

/-- Every input event gives a next state; only FEED needs the invariants for it. -/
theorem State.Inv.exec_next {i : Instr} {s : State} (hs : s.Inv) (hi : isInputEvent i = true) :
    ∃ t, exec i s = .next t := by
  have heffect := exec_inputEffect hi s
  generalize exec i s = o at heffect
  cases heffect with
  | feed b hfeed =>
    obtain ⟨t, ht⟩ := hs.feedByte_next b
    exact ⟨t, hfeed.symm.trans ht⟩
  | _ => exact ⟨_, rfl⟩

/-- An event that the command port does not decode, other than a reserved word, is refused (log entry 3). -/
theorem step_of_malformed {s : State} {e : Event} {rest : List Event} {err : DecodeError} (hinput : s.input = e :: rest)
    (hdecode : decodeEvent e = .error err) (herr : ∀ c, err ≠ .reservedWord c) :
    step s = .refused (.malformedEvent err) := by
  unfold step
  rw [hinput]
  simp only [hdecode]

/-- Everything a step can do under the invariants: a next state, or the refusal of a malformed event. -/
theorem State.Inv.step_outcome {s : State} (hs : s.Inv) :
    (∃ t, step s = .next t) ∨
    (∃ e rest err, s.input = e :: rest ∧ decodeEvent e = .error err ∧ (∀ c, err ≠ .reservedWord c) ∧
      step s = .refused (.malformedEvent err)) := by
  cases hinput : s.input with
  | nil => exact .inl ⟨s, step_of_input_nil hinput⟩
  | cons e rest =>
    cases hdecode : decodeEvent e with
    | ok i =>
      rw [step_of_decodeEvent_ok hinput hdecode]
      exact .inl ((hs.after_setInput rest).exec_next (isInputEvent_of_decodeEvent hdecode))
    | error err =>
      by_cases herr : ∃ c, err = .reservedWord c
      · obtain ⟨c, rfl⟩ := herr
        exact .inl ⟨_, step_of_reservedWord hinput hdecode⟩
      · have herr : ∀ c, err ≠ .reservedWord c := not_exists.mp herr
        exact .inr ⟨e, rest, err, rfl, hdecode, herr, step_of_malformed hinput hdecode herr⟩

/-- Settles O53: `State.Inv.step_outcome` leaves no fault and one refusal. -/
theorem noInputEventStopsTheMachine : Obligations.NoInputEventStopsTheMachine := by
  unfold Obligations.NoInputEventStopsTheMachine
  intro s hs
  rcases hs.step_outcome with ⟨t, hstep⟩ | ⟨e, rest, err, hinput, hdecode, herr, hstep⟩ <;> rw [hstep]
  · exact ⟨nofun, nofun⟩
  · refine ⟨nofun, fun r hr => ⟨e, rest, err, hinput, hdecode, herr, ?_⟩⟩
    cases hr
    rfl

end Sys2Proof.Machine
end

section
/-! The codec field by field (30_encoding.md R100 to R107): each field map as the test on the byte that
42_codec_decode.md states, and what is left when a byte is decoded and encoded back, or the other way round. -/

namespace Sys2Proof.Machine

/-- The voltage labels as tests on the byte (R106). -/
theorem decVolt_eq (b : Byte) :
    decVolt b = if b = 0#8 then .v24 else if b = 1#8 then .v36 else if b = 2#8 then .v48
      else if b = 3#8 then .v60 else if b = 4#8 then .v24to48 else .v24to60 := by
  simp only [← BitVec.toNat_inj]
  unfold decVolt
  split <;> simp_all

/-- Decoding a `pedal_type` byte makes its number canonical (R103, 42_codec_decode.md R200). -/
theorem decEnum_pedalTypeOfWire (b : Byte) : decEnum pedalTypeOfWire b = canonPedalType (.num b) := by
  simp only [canonPedalType, ← BitVec.toNat_inj]
  unfold decEnum
  split
  next l hl =>
    unfold pedalTypeOfWire at hl
    split at hl <;> simp_all
  next hl =>
    unfold pedalTypeOfWire at hl
    split at hl <;> simp_all

/-- The same for the Throttle mode. -/
theorem decEnum_throttleModeOfWire (b : Byte) : decEnum throttleModeOfWire b = canonThrottleMode (.num b) := by
  simp only [canonThrottleMode, ← BitVec.toNat_inj]
  unfold decEnum
  split
  next l hl =>
    unfold throttleModeOfWire at hl
    split at hl <;> simp_all
  next hl =>
    unfold throttleModeOfWire at hl
    split at hl <;> simp_all

/-- A `pedal_type` and the number that is its byte have one canonical form. -/
theorem decEnum_encEnum_pedalType (e : EnumField PedalType) :
    decEnum pedalTypeOfWire (encEnum pedalTypeToWire e) = canonPedalType e := by
  rw [decEnum_pedalTypeOfWire]
  cases e with
  | label l => cases l <;> rfl
  | num n => rfl
  | invalidLabel => rfl

/-- The same for the Throttle mode. -/
theorem decEnum_encEnum_throttleMode (e : EnumField ThrottleMode) :
    decEnum throttleModeOfWire (encEnum throttleModeToWire e) = canonThrottleMode e := by
  rw [decEnum_throttleModeOfWire]
  cases e with
  | label l => cases l <;> rfl
  | num n => rfl
  | invalidLabel => rfl

/-- An enumeration whose labels have the wire values they are read from gives every byte back, also one outside it
(R103, 42_codec_decode.md R201). -/
theorem encEnum_decEnum {T : Type} {ofWire : Nat → Option T} {toWire : T → Byte}
    (hwire : ∀ n l, ofWire n = some l → (toWire l).toNat = n) (b : Byte) :
    encEnum toWire (decEnum ofWire b) = b := by
  unfold decEnum
  split
  next l hl => exact BitVec.eq_of_toNat_eq (hwire _ l hl)
  next => rfl

/-- The wire values of `pedal_type` (R28). -/
theorem toNat_pedalTypeToWire (n : Nat) (l : PedalType) (hl : pedalTypeOfWire n = some l) :
    (pedalTypeToWire l).toNat = n := by
  unfold pedalTypeOfWire at hl
  split at hl <;> cases hl <;> rfl

/-- The wire values of the Throttle mode (R28). -/
theorem toNat_throttleModeToWire (n : Nat) (l : ThrottleMode) (hl : throttleModeOfWire n = some l) :
    (throttleModeToWire l).toNat = n := by
  unfold throttleModeOfWire at hl
  split at hl <;> cases hl <;> rfl

/-- `Num(255)` shares its byte with the sentinel tag, and the tag is what comes back (R101). -/
theorem decDisp_encDisp (d : Disp8) : decDisp (encDisp d) = canonDisp d := by
  cases d <;> rfl

/-- The same for `Und8` (R102). -/
theorem decUnd_encUnd (u : Und8) : decUnd (encUnd u) = canonUnd u := by
  cases u <;> rfl

/-- No byte is lost through `Disp8`. -/
theorem encDisp_decDisp (b : Byte) : encDisp (decDisp b) = b := by
  unfold decDisp
  split
  next hb => exact hb.symm
  next => rfl

/-- No byte is lost through `Und8`. -/
theorem encUnd_decUnd (b : Byte) : encUnd (decUnd b) = b := by
  unfold decUnd
  split
  next hb => exact hb.symm
  next => rfl

/-- A wheel byte is even or 0x37, so decoding it does not round (R104). -/
theorem decWheel_of_encWheel {w : Wheel} {b : Byte} (henc : encWheel w = some b) : decWheel b = w := by
  cases w with
  | w700C =>
    cases henc
    rfl
  | inches n =>
    obtain ⟨hn, hb⟩ := Option.ite_none_right_eq_some.mp henc
    have hdouble : b.toNat = 2 * n.toNat := by
      rw [← Option.some.inj hb, BitVec.toNat_ofNat]
      omega
    have hinches : b ≠ Config.wheel700C := by
      rintro rfl
      have heven : 0x37 = 2 * n.toNat := hdouble
      omega
    have hhalf : (b.toNat + 1) / 2 = n.toNat := by omega
    rw [decWheel, if_neg hinches, hhalf, BitVec.ofNat_toNat, BitVec.setWidth_eq]

/-- The wheel byte back from its decoded form: an odd one rounds up, and 0xFF to a diameter that does not fit
(42_codec_decode.md R201 (a)). -/
theorem encWheel_decWheel (b : Byte) : encWheel (decWheel b) = reencodedWheel b := by
  have hlt := b.isLt
  unfold decWheel reencodedWheel
  by_cases h700 : b = Config.wheel700C
  · rw [h700]
    rfl
  · have hinches : (BitVec.ofNat 8 ((b.toNat + 1) / 2)).toNat = (b.toNat + 1) / 2 := by
      rw [BitVec.toNat_ofNat]
      omega
    rw [if_neg h700, encWheel, hinches]
    by_cases hff : b = 0xFF#8
    · subst hff
      rfl
    · have hlast : b.toNat ≠ 255 := fun h => hff (BitVec.eq_of_toNat_eq h)
      have hfits : (b.toNat + 1) / 2 < 128 := by omega
      rw [if_pos hfits, if_neg hff]
      by_cases hodd : b.toNat % 2 = 1
      · have hup : 2 * ((b.toNat + 1) / 2) = b.toNat + 1 := by omega
        rw [if_pos ⟨hodd, h700⟩, hup, BitVec.ofNat_add, BitVec.ofNat_toNat, BitVec.setWidth_eq]
      · have hsame : 2 * ((b.toNat + 1) / 2) = b.toNat := by omega
        rw [if_neg (fun ⟨h, _⟩ => hodd h), hsame, BitVec.ofNat_toNat, BitVec.setWidth_eq]

/-- The upper two bits of a byte are what is left above the lower six. -/
theorem bits_7_6 (b : Byte) : bits 7 6 b = b.toNat / 64 := by
  have hlt := b.isLt
  unfold bits
  omega

/-- The lower six bits of a byte as a remainder. -/
theorem bits_5_0 (b : Byte) : bits 5 0 b = b.toNat % 64 := by
  rw [bits, Nat.pow_zero, Nat.div_one]
  rfl

/-- The lower six bits of a byte as a mask (42_codec_decode.md R186). -/
theorem ofNat_bits_5_0 (b : Byte) : BitVec.ofNat 8 (bits 5 0 b) = b &&& 0x3F#8 := by
  have hmask : b.toNat &&& 63 = b.toNat % 64 := Nat.and_two_pow_sub_one_eq_mod b.toNat 6
  apply BitVec.eq_of_toNat_eq
  rw [bits_5_0, BitVec.toNat_ofNat, BitVec.toNat_and]
  change b.toNat % 64 % 256 = b.toNat &&& 63
  omega

/-- The speed-meter models as tests on the wire value (R105). -/
theorem decSpeedModel_eq (w : Nat) :
    decSpeedModel w = if w = 0 then .external else if w = 1 then .internal else .motorphase := by
  unfold decSpeedModel
  split <;> simp_all

/-- A model that can be encoded has a two-bit wire value, which decodes to its canonical form (R105). -/
theorem decSpeedModel_of_speedModelToWire {m : EnumField SpeedModel} {w : Nat} (hwire : speedModelToWire m = some w) :
    w < 4 ∧ .label (decSpeedModel w) = canonSpeedModel m := by
  unfold speedModelToWire at hwire
  split at hwire <;> cases hwire <;> exact ⟨by decide, rfl⟩

/-- The two fields of an encoded speed-meter byte do not overlap (R105). -/
theorem decode_of_encSpeedByte {m : EnumField SpeedModel} {signals b : Byte} (henc : encSpeedByte m signals = some b) :
    .label (decSpeedModel (bits 7 6 b)) = canonSpeedModel m ∧ BitVec.ofNat 8 (bits 5 0 b) = signals := by
  obtain ⟨hsignals, henc⟩ := Option.ite_none_left_eq_some.mp henc
  obtain ⟨w, hwire, hb⟩ := Option.map_eq_some_iff.mp henc
  obtain ⟨hw, hmodel⟩ := decSpeedModel_of_speedModelToWire hwire
  have hbyte : b.toNat = w * 64 + signals.toNat := by
    rw [← hb, BitVec.toNat_ofNat]
    omega
  have hhigh : b.toNat / 64 = w := by omega
  have hlow : b.toNat % 64 = signals.toNat := by omega
  rw [bits_7_6, bits_5_0, hhigh, hlow, BitVec.ofNat_toNat, BitVec.setWidth_eq]
  exact ⟨hmodel, rfl⟩

/-- The wire value of a decoded model: 2 is read as Motorphase, and Motorphase is written as 3 (R105). -/
theorem speedModelToWire_decSpeedModel {w : Nat} (hw : w < 4) :
    speedModelToWire (.label (decSpeedModel w)) = some (if w = 2 then 3 else w) := by
  interval_cases w <;> rfl

/-- The speed-meter byte back from its two decoded fields (42_codec_decode.md R201 (b)). -/
theorem encSpeedByte_of_decoded (b : Byte) :
    encSpeedByte (.label (decSpeedModel (bits 7 6 b))) (BitVec.ofNat 8 (bits 5 0 b)) = some (reencodedSpeed b) := by
  have hlt := b.isLt
  have hsignals : (BitVec.ofNat 8 (bits 5 0 b)).toNat = b.toNat % 64 := by
    rw [bits_5_0, BitVec.toNat_ofNat]
    omega
  have hfits : ¬ 63 < b.toNat % 64 := by omega
  have hw : b.toNat / 64 < 4 := by omega
  rw [encSpeedByte, hsignals, if_neg hfits, bits_7_6, speedModelToWire_decSpeedModel hw, Option.map_some]
  refine congrArg some ?_
  unfold reencodedSpeed
  by_cases htwo : b.toNat / 64 = 2
  · have hrange : 0x80 ≤ b.toNat ∧ b.toNat < 0xC0 := by omega
    have hnext : 3 * 64 + b.toNat % 64 = b.toNat + 64 := by omega
    rw [if_pos htwo, if_pos hrange, hnext, BitVec.ofNat_add, BitVec.ofNat_toNat, BitVec.setWidth_eq]
  · have hrange : ¬ (0x80 ≤ b.toNat ∧ b.toNat < 0xC0) := by omega
    have hsame : b.toNat / 64 * 64 + b.toNat % 64 = b.toNat := by omega
    rw [if_neg htwo, if_neg hrange, hsame, BitVec.ofNat_toNat, BitVec.setWidth_eq]

/-- A sentinel field is canonical unless it is `Num(255)` (42_codec_decode.md R200). -/
theorem canonDisp_of_ne {d : Disp8} (hd : d ≠ .num 0xFF#8) : canonDisp d = d := by
  cases d with
  | display => rfl
  | num n => exact if_neg fun hn => hd (congrArg _ hn)

/-- The same for `Und8`. -/
theorem canonUnd_of_ne {u : Und8} (hu : u ≠ .num 0xFF#8) : canonUnd u = u := by
  cases u with
  | undetermined => rfl
  | num n => exact if_neg fun hn => hu (congrArg _ hn)

/-- A `pedal_type` is canonical as a label and as a number outside the enumeration. -/
theorem canonPedalType_of_canonical {e : EnumField PedalType} (hvalid : e ≠ .invalidLabel)
    (hnum : ∀ n, e = .num n → 3 < n.toNat) : canonPedalType e = e := by
  cases e with
  | label l => rfl
  | num n =>
    have hn := hnum n rfl
    have hne (c : Byte) (hc : c.toNat ≤ 3) : n ≠ c := by
      rintro rfl
      omega
    rw [canonPedalType, if_neg (hne _ (by decide)), if_neg (hne _ (by decide)), if_neg (hne _ (by decide)),
      if_neg (hne _ (by decide))]
  | invalidLabel => exact absurd rfl hvalid

/-- The same for the Throttle mode. -/
theorem canonThrottleMode_of_canonical {e : EnumField ThrottleMode} (hvalid : e ≠ .invalidLabel)
    (hnum : ∀ n, e = .num n → 1 < n.toNat) : canonThrottleMode e = e := by
  cases e with
  | label l => rfl
  | num n =>
    have hn := hnum n rfl
    have hne (c : Byte) (hc : c.toNat ≤ 1) : n ≠ c := by
      rintro rfl
      omega
    rw [canonThrottleMode, if_neg (hne _ (by decide)), if_neg (hne _ (by decide))]
  | invalidLabel => exact absurd rfl hvalid

/-- A speed-meter model is canonical unless it is the invalid label. -/
theorem canonSpeedModel_of_ne {e : EnumField SpeedModel} (hvalid : e ≠ .invalidLabel) : canonSpeedModel e = e := by
  cases e with
  | label l => rfl
  | num n => rfl
  | invalidLabel => exact absurd rfl hvalid

end Sys2Proof.Machine
end

section
/-! The decoders field by field, and the round trips of 42_codec_decode.md R200 and R201 in both directions. -/

namespace Sys2Proof.Machine

/-- DEC.GENERAL returns its value and changes nothing else (30_encoding.md R120, as for the six below). -/
theorem exec_decGeneral (f : List Byte) (s : State) : exec (.decGeneral f) s
    = .next { s with ret := some (((decodeGeneral f).map Result.general).getD .decErr) } := rfl

/-- DEC.BASIC returns its value. -/
theorem exec_decBasic (f : List Byte) (s : State) : exec (.decBasic f) s
    = .next { s with ret := some (((decodeBasic f).map Result.basic).getD .decErr) } := rfl

/-- DEC.PEDAL returns its value. -/
theorem exec_decPedal (f : List Byte) (s : State) : exec (.decPedal f) s
    = .next { s with ret := some (((decodePedal f).map Result.pedal).getD .decErr) } := rfl

/-- DEC.THROTTLE returns its value. -/
theorem exec_decThrottle (f : List Byte) (s : State) : exec (.decThrottle f) s
    = .next { s with ret := some (((decodeThrottle f).map Result.throttle).getD .decErr) } := rfl

/-- ENC.BASIC returns its payload or `ENC_ERR`. -/
theorem exec_encBasic (r : BasicRecord) (s : State) : exec (.encBasic r) s
    = .next { s with ret := some (((encodeBasic r).map Result.bytes).getD .encErr) } := rfl

/-- ENC.PEDAL returns its payload. -/
theorem exec_encPedal (r : PedalRecord) (s : State) :
    exec (.encPedal r) s = .next { s with ret := some (.bytes (encodePedal r)) } := rfl

/-- ENC.THROTTLE returns its payload. -/
theorem exec_encThrottle (r : ThrottleRecord) (s : State) :
    exec (.encThrottle r) s = .next { s with ret := some (.bytes (encodeThrottle r)) } := rfl

/-- Settles O17: each decoder tests the length first. -/
theorem decodeOfAnotherLengthIsDecErr : Obligations.DecodeOfAnotherLengthIsDecErr := by
  unfold Obligations.DecodeOfAnotherLengthIsDecErr
  refine fun f s => ⟨fun hlen => ?_, fun hlen => ?_, fun hlen => ?_, fun hlen => ?_⟩
  · rw [exec_decGeneral, decodeGeneral, if_neg hlen]
    rfl
  · rw [exec_decBasic, decodeBasic, if_neg hlen]
    rfl
  · rw [exec_decPedal, decodePedal, if_neg hlen]
    rfl
  · rw [exec_decThrottle, decodeThrottle, if_neg hlen]
    rfl

/-- Settles O13: the voltage is `decVolt_eq`, every other field a byte at its offset. -/
theorem decodeGeneralFields : Obligations.DecodeGeneralFields := by
  unfold Obligations.DecodeGeneralFields
  intro f s hlen
  rw [exec_decGeneral, decodeGeneral, if_pos hlen, decVolt_eq]
  rfl

/-- Settles O14: byte 25 is split by `bits_7_6` and `ofNat_bits_5_0`, and the wheel byte is rounded as a shift. -/
theorem decodeBasicFields : Obligations.DecodeBasicFields := by
  unfold Obligations.DecodeBasicFields
  intro f s hlen
  rw [exec_decBasic, decodeBasic, if_pos hlen, bits_7_6, decSpeedModel_eq, ofNat_bits_5_0, decWheel]
  simp only [Nat.shiftRight_eq_div_pow]
  rfl

/-- Settles O15: `decEnum_pedalTypeOfWire`; the sentinel fields are `decDisp` and `decUnd` themselves. -/
theorem decodePedalFields : Obligations.DecodePedalFields := by
  unfold Obligations.DecodePedalFields
  intro f s hlen
  rw [exec_decPedal, decodePedal, if_pos hlen, decEnum_pedalTypeOfWire]
  rfl

/-- Settles O16: `decEnum_throttleModeOfWire`; the sentinel fields are `decDisp` itself. -/
theorem decodeThrottleFields : Obligations.DecodeThrottleFields := by
  unfold Obligations.DecodeThrottleFields
  intro f s hlen
  rw [exec_decThrottle, decodeThrottle, if_pos hlen, decEnum_throttleModeOfWire]
  rfl

/-- ENC.BASIC fails when one of its two last bytes does, and nowhere else (43_codec_encode.md R222, R224). -/
theorem encodeBasic_eq_bind (r : BasicRecord) :
    encodeBasic r = (encWheel r.wheelSize).bind fun w =>
      (encSpeedByte r.speedmeterModel r.speedmeterSignals).map fun m =>
        [r.lowBatteryProtect, r.currentLimit] ++ encLevels r.assistCurrent ++ encLevels r.assistSpeed ++ [w, m] := by
  unfold encodeBasic
  cases encWheel r.wheelSize <;> cases encSpeedByte r.speedmeterModel r.speedmeterSignals <;> rfl

/-- A framed Basic payload decodes to the canonical record, whatever the bytes no decoder reads. -/
theorem decodeBasic_of_encodeBasic {r : BasicRecord} {p : List Byte} (henc : encodeBasic r = some p) (i x y : Byte) :
    decodeBasic ([i, x] ++ p ++ [y]) = some (canonBasic r) := by
  rw [encodeBasic_eq_bind] at henc
  obtain ⟨w, hwheel, henc⟩ := Option.bind_eq_some_iff.mp henc
  obtain ⟨m, hspeed, rfl⟩ := Option.map_eq_some_iff.mp henc
  obtain ⟨hmodel, hsignals⟩ := decode_of_encSpeedByte hspeed
  have hdecode : decodeBasic ([i, x] ++ ([r.lowBatteryProtect, r.currentLimit] ++ encLevels r.assistCurrent
      ++ encLevels r.assistSpeed ++ [w, m]) ++ [y]) = some { r with
        wheelSize := decWheel w, speedmeterModel := .label (decSpeedModel (bits 7 6 m)),
        speedmeterSignals := BitVec.ofNat 8 (bits 5 0 m) } := rfl
  rw [hdecode, decWheel_of_encWheel hwheel, hmodel, hsignals]
  rfl

/-- A framed PedalAssist payload decodes to the canonical record. -/
theorem decodePedal_encodePedal (r : PedalRecord) (i x y : Byte) :
    decodePedal ([i, x] ++ encodePedal r ++ [y]) = some (canonPedal r) := by
  rw [canonPedal, ← decEnum_encEnum_pedalType, ← decDisp_encDisp, ← decDisp_encDisp, ← decUnd_encUnd]
  rfl

/-- A framed Throttle payload decodes to the canonical record. -/
theorem decodeThrottle_encodeThrottle (r : ThrottleRecord) (i x y : Byte) :
    decodeThrottle ([i, x] ++ encodeThrottle r ++ [y]) = some (canonThrottle r) := by
  rw [canonThrottle, ← decEnum_encEnum_throttleMode, ← decDisp_encDisp, ← decDisp_encDisp]
  rfl

/-- ENC.BASIC has returned a payload only where `encodeBasic` gives it. -/
theorem encodeBasic_of_exec {r : BasicRecord} {s t : State} {p : List Byte} (hexec : exec (.encBasic r) s = .next t)
    (hret : t.ret = some (.bytes p)) : encodeBasic r = some p := by
  rw [exec_encBasic] at hexec
  cases hexec
  cases henc : encodeBasic r with
  | none =>
    rw [henc] at hret
    cases hret
  | some q =>
    rw [henc] at hret
    cases hret
    rfl

/-- Settles O20: decoding after encoding, for each kind, and the canonical fields of a record that is canonical. -/
theorem decodeAfterEncodeIsCanonical : Obligations.DecodeAfterEncodeIsCanonical := by
  unfold Obligations.DecodeAfterEncodeIsCanonical
  refine ⟨fun r s t p x y hexec hret => ?_, fun r s t p x y hexec hret => ?_, fun r s t p x y hexec hret => ?_,
    fun r hmodel => ?_, fun r hvalid hnum hassist hspeed hmode => ?_, fun r hvalid hnum hassist hspeed => ?_⟩
  · rw [exec_decBasic, decodeBasic_of_encodeBasic (encodeBasic_of_exec hexec hret)]
    rfl
  · cases hexec
    cases hret
    rw [exec_decPedal, decodePedal_encodePedal]
    rfl
  · cases hexec
    cases hret
    rw [exec_decThrottle, decodeThrottle_encodeThrottle]
    rfl
  · rw [canonBasic, canonSpeedModel_of_ne hmodel]
  · rw [canonPedal, canonPedalType_of_canonical hvalid hnum, canonDisp_of_ne hassist, canonDisp_of_ne hspeed,
      canonUnd_of_ne hmode]
  · rw [canonThrottle, canonThrottleMode_of_canonical hvalid hnum, canonDisp_of_ne hassist, canonDisp_of_ne hspeed]

/-- A slice of a frame, byte by byte. -/
theorem memRead_eq_map_byteAt {f : List Byte} {o n : Nat} (hlen : o + n ≤ f.length) :
    memRead f o n = (List.range n).map fun i => byteAt f (o + i) := by
  have hsize : (memRead f o n).length = n := by
    rw [memRead, List.length_take, List.length_drop]
    omega
  apply List.ext_getElem
  · rw [hsize, List.length_map, List.length_range]
  · intro i hi _
    rw [hsize] at hi
    have hin : o + i < f.length := by omega
    simp only [memRead, byteAt, List.getElem_take, List.getElem_drop, List.getElem_map, List.getElem_range,
      List.getD_eq_getElem f _ hin]

/-- A decoded PedalAssist record encodes to the frame's eleven field bytes. -/
theorem encodePedal_of_decodePedal {f : List Byte} {r : PedalRecord} (hdec : decodePedal f = some r) :
    encodePedal r = memRead f 2 11 := by
  obtain ⟨hlen, hr⟩ := Option.ite_none_right_eq_some.mp hdec
  cases hr
  rw [encodePedal, memRead_eq_map_byteAt (by omega), encEnum_decEnum toNat_pedalTypeToWire, encDisp_decDisp,
    encDisp_decDisp, encUnd_decUnd]
  rfl

/-- A decoded Throttle record encodes to the frame's six field bytes. -/
theorem encodeThrottle_of_decodeThrottle {f : List Byte} {r : ThrottleRecord} (hdec : decodeThrottle f = some r) :
    encodeThrottle r = memRead f 2 6 := by
  obtain ⟨hlen, hr⟩ := Option.ite_none_right_eq_some.mp hdec
  cases hr
  rw [encodeThrottle, memRead_eq_map_byteAt (by omega), encEnum_decEnum toNat_throttleModeToWire, encDisp_decDisp,
    encDisp_decDisp]
  rfl

/-- A decoded Basic record encodes to the frame's first 22 field bytes and its two lossy ones. -/
theorem encodeBasic_of_decodeBasic {f : List Byte} {r : BasicRecord} (hdec : decodeBasic f = some r) :
    encodeBasic r = (reencodedWheel (byteAt f 24)).map fun w =>
      memRead f 2 22 ++ [w, reencodedSpeed (byteAt f 25)] := by
  obtain ⟨hlen, hr⟩ := Option.ite_none_right_eq_some.mp hdec
  cases hr
  rw [encodeBasic_eq_bind, encWheel_decWheel, encSpeedByte_of_decoded, memRead_eq_map_byteAt (by omega)]
  cases reencodedWheel (byteAt f 24) <;> rfl

/-- Settles O21: encoding after decoding, for each kind; ENC.BASIC fails exactly on the wheel byte 0xFF. -/
theorem encodeAfterDecodeIsTheFrame : Obligations.EncodeAfterDecodeIsTheFrame := by
  unfold Obligations.EncodeAfterDecodeIsTheFrame
  refine ⟨fun f s hlen => ?_, fun f s hlen => ?_, fun f s hlen => ?_⟩
  · obtain ⟨r, hdec⟩ : ∃ r, decodeBasic f = some r := ⟨_, if_pos hlen⟩
    refine ⟨r, by rw [exec_decBasic, hdec]; rfl, ?_⟩
    rw [exec_encBasic, encodeBasic_of_decodeBasic hdec, byteAt, byteAt]
    cases reencodedWheel (f.getD 24 0#8) <;> rfl
  · obtain ⟨r, hdec⟩ : ∃ r, decodePedal f = some r := ⟨_, if_pos hlen⟩
    refine ⟨r, by rw [exec_decPedal, hdec]; rfl, ?_⟩
    rw [exec_encPedal, encodePedal_of_decodePedal hdec, memRead]
  · obtain ⟨r, hdec⟩ : ∃ r, decodeThrottle f = some r := ⟨_, if_pos hlen⟩
    refine ⟨r, by rw [exec_decThrottle, hdec]; rfl, ?_⟩
    rw [exec_encThrottle, encodeThrottle_of_decodeThrottle hdec, memRead]

end Sys2Proof.Machine
end

section
/-! The payloads of 43_codec_encode.md byte by byte, and where ENC.BASIC answers `ENC_ERR`. The hypotheses of
`encWheel_of_le` and `encSpeedByte_of_le` stand in the arrow because a `match` would take named ones as its own. -/

namespace Sys2Proof.Machine

/-- The byte of a `pedal_type`: index, literal number, or index 0 (R103, R245). -/
theorem encEnum_pedalTypeToWire (e : EnumField PedalType) : encEnum pedalTypeToWire e =
    match e with
    | .label .noPedal => 0#8
    | .label .dhSensor12 => 1#8
    | .label .bbSensor32 => 2#8
    | .label .doubleSignal24 => 3#8
    | .num n => n
    | .invalidLabel => 0#8 := by
  cases e with
  | label l => cases l <;> rfl
  | num n => rfl
  | invalidLabel => rfl

/-- The same for the Throttle mode. -/
theorem encEnum_throttleModeToWire (e : EnumField ThrottleMode) : encEnum throttleModeToWire e =
    match e with
    | .label .speed => 0#8
    | .label .current => 1#8
    | .num n => n
    | .invalidLabel => 0#8 := by
  cases e with
  | label l => cases l <;> rfl
  | num n => rfl
  | invalidLabel => rfl

/-- Settles O19: the enumeration bytes are `encEnum_pedalTypeToWire` and `encEnum_throttleModeToWire`; the sentinel
bytes are `encDisp` and `encUnd` themselves. -/
theorem encodePedalAndThrottlePayload : Obligations.EncodePedalAndThrottlePayload := by
  unfold Obligations.EncodePedalAndThrottlePayload
  refine ⟨fun r s => ?_, fun r s => ?_⟩
  · rw [exec_encPedal, encodePedal, encEnum_pedalTypeToWire]
    rfl
  · rw [exec_encThrottle, encodeThrottle, encEnum_throttleModeToWire]
    rfl

/-- A wheel cannot be encoded exactly when the double of its diameter does not fit a byte (R104, R224). -/
theorem encWheel_eq_none_iff {w : Wheel} : encWheel w = none ↔ ∃ n, w = .inches n ∧ 128 ≤ n.toNat := by
  cases w <;> simp [encWheel]

/-- The wheel byte where there is one (R104). -/
theorem encWheel_of_le {w : Wheel} : (∀ n, w = .inches n → n.toNat ≤ 127) → encWheel w = some
    (match w with
     | .w700C => 0x37#8
     | .inches n => BitVec.ofNat 8 (2 * n.toNat)) := by
  intro hfits
  cases w with
  | w700C => rfl
  | inches n => exact if_pos (Nat.lt_succ_of_le (hfits n rfl))

/-- Only a numeric speed-meter model has no wire value (R105, R224). -/
theorem speedModelToWire_eq_none_iff {m : EnumField SpeedModel} : speedModelToWire m = none ↔ ∃ n, m = .num n := by
  cases m with
  | label l => cases l <;> simp [speedModelToWire]
  | num n => simp [speedModelToWire]
  | invalidLabel => simp [speedModelToWire]

/-- The speed-meter byte fails for more than six bits of signals or a numeric model (R105, R224). -/
theorem encSpeedByte_eq_none_iff {m : EnumField SpeedModel} {signals : Byte} :
    encSpeedByte m signals = none ↔ 63 < signals.toNat ∨ ∃ n, m = .num n := by
  rw [encSpeedByte, ite_eq_left_iff, Option.map_eq_none_iff, speedModelToWire_eq_none_iff, or_iff_not_imp_left]

/-- The speed-meter byte where there is one: index 0 leaves the upper two bits clear, and Motorphase sets both
(R105, R223). -/
theorem encSpeedByte_of_le {m : EnumField SpeedModel} {signals : Byte} : signals.toNat ≤ 63 →
    (∀ n, m ≠ .num n) → encSpeedByte m signals = some
    (match m with
     | .label .internal => BitVec.ofNat 8 (1 * 64 + signals.toNat)
     | .label .motorphase => BitVec.ofNat 8 (3 * 64 + signals.toNat)
     | _ => signals) := by
  intro hsignals hmodel
  have hindex0 : BitVec.ofNat 8 (0 * 64 + signals.toNat) = signals := by
    rw [Nat.zero_mul, Nat.zero_add, BitVec.ofNat_toNat, BitVec.setWidth_eq]
  rw [encSpeedByte, if_neg (Nat.not_lt.mpr hsignals)]
  cases m with
  | label l =>
    cases l with
    | external => exact congrArg some hindex0
    | internal => rfl
    | motorphase => rfl
  | num n => exact absurd rfl (hmodel n)
  | invalidLabel => exact congrArg some hindex0

/-- ENC.BASIC answers `ENC_ERR` in the three cases of R224 and in no other. -/
theorem encodeBasic_eq_none_iff {r : BasicRecord} : encodeBasic r = none ↔
    (∃ n, r.wheelSize = .inches n ∧ 128 ≤ n.toNat) ∨ 63 < r.speedmeterSignals.toNat ∨
      ∃ n, r.speedmeterModel = .num n := by
  rw [← encWheel_eq_none_iff, ← encSpeedByte_eq_none_iff, encodeBasic_eq_bind]
  cases encWheel r.wheelSize <;> simp

/-- Settles O18: the two last bytes are `encWheel_of_le` and `encSpeedByte_of_le`, and `ENC_ERR` is
`encodeBasic_eq_none_iff`. -/
theorem encodeBasicPayload : Obligations.EncodeBasicPayload := by
  unfold Obligations.EncodeBasicPayload
  refine fun r s => ⟨fun hwheel hsignals hmodel => ?_, fun herr => ?_⟩
  · rw [exec_encBasic, encodeBasic_eq_bind, encWheel_of_le hwheel, encSpeedByte_of_le hsignals hmodel]
    rfl
  · rw [exec_encBasic, encodeBasic_eq_none_iff.mpr herr]
    rfl

end Sys2Proof.Machine
end

section
/-! The result-code translator (44_result_code.md): each table read by the rule's own cases. -/

namespace Sys2Proof.Machine

/-- RCT.BASIC returns its verdict. -/
theorem exec_rctBasic {r : Byte} {v : Verdict} (hv : rctBasic r = v) (s : State) :
    exec (.rctBasic r) s = .next { s with ret := some (.verdict v) } := by
  rw [← hv]; rfl

/-- RCT.PEDAL returns its verdict. -/
theorem exec_rctPedal {r : Byte} {v : Verdict} (hv : rctPedal r = v) (s : State) :
    exec (.rctPedal r) s = .next { s with ret := some (.verdict v) } := by
  rw [← hv]; rfl

/-- RCT.THROTTLE returns its verdict. -/
theorem exec_rctThrottle {r : Byte} {v : Verdict} (hv : rctThrottle r = v) (s : State) :
    exec (.rctThrottle r) s = .next { s with ret := some (.verdict v) } := by
  rw [← hv]; rfl

/-- The even codes 2 to 20 blame the current of an assist level (R262). -/
theorem rctBasic_assistCurrent {r : Byte} (level : Fin 10) (hr : r.toNat = 2 * level.val + 2) :
    rctBasic r = .fieldError .basic (.assistCurrent level) := by
  unfold rctBasic
  rw [hr]
  fin_cases level <;> rfl

/-- The odd codes 3 to 21 blame the speed of an assist level (R262). -/
theorem rctBasic_assistSpeed {r : Byte} (level : Fin 10) (hr : r.toNat = 2 * level.val + 3) :
    rctBasic r = .fieldError .basic (.assistSpeed level) := by
  unfold rctBasic
  rw [hr]
  fin_cases level <;> rfl

/-- From 25 on RCT.BASIC knows no code (R263). -/
theorem rctBasic_unknown {r : Byte} (hr : 24 < r.toNat) : rctBasic r = .unknownCode r := by
  unfold rctBasic
  split
  case h_26 => rfl
  all_goals omega

/-- The fields of a PedalAssist payload in the order of R264. -/
def pedalFields : List FieldName :=
  [.pedalType, .designatedAssist, .speedLimit, .startCurrent, .slowStartMode, .startupDegree, .workMode, .timeOfStop,
    .currentDecay, .stopDecay, .keepCurrent]

/-- A code in the range of the payload blames the field at that index (R264); no index takes the fallback. -/
theorem rctPedal_field {r : Byte} (hr : r.toNat < 11) (fallback : FieldName) :
    rctPedal r = .fieldError .pedalAssist (pedalFields.getD r.toNat fallback) := by
  unfold rctPedal
  generalize r.toNat = index at hr
  interval_cases index <;> rfl

/-- From 12 on RCT.PEDAL knows no code (R265). -/
theorem rctPedal_unknown {r : Byte} (hr : 11 < r.toNat) : rctPedal r = .unknownCode r := by
  unfold rctPedal
  split
  case h_13 => rfl
  all_goals omega

/-- The fields of a Throttle payload in the order of R266. -/
def throttleFields : List FieldName :=
  [.startVoltage, .endVoltage, .mode, .designatedAssist, .speedLimit, .startCurrent]

/-- A code in the range of the payload blames the field at that index (R266); no index takes the fallback. -/
theorem rctThrottle_field {r : Byte} (hr : r.toNat < 6) (fallback : FieldName) :
    rctThrottle r = .fieldError .throttle (throttleFields.getD r.toNat fallback) := by
  unfold rctThrottle
  generalize r.toNat = index at hr
  interval_cases index <;> rfl

/-- From 7 on RCT.THROTTLE knows no code (R267). -/
theorem rctThrottle_unknown {r : Byte} (hr : 6 < r.toNat) : rctThrottle r = .unknownCode r := by
  unfold rctThrottle
  split
  case h_8 => rfl
  all_goals omega

/-- Settles O23: the cases of R262 in order. Halving the code less its offset gives the assist level back. -/
theorem rctBasicVerdict : Obligations.RctBasicVerdict := by
  unfold Obligations.RctBasicVerdict
  intro r s
  refine exec_rctBasic ?_ s
  split_ifs with hzero hone hassist heven hwheel hsignals hsuccess
  · simp only [rctBasic, hzero]
  · simp only [rctBasic, hone]
  · exact rctBasic_assistCurrent _ (by rw [Fin.val_ofNat]; omega)
  · exact rctBasic_assistSpeed _ (by rw [Fin.val_ofNat]; omega)
  · simp only [rctBasic, hwheel]
  · simp only [rctBasic, hsignals]
  · exact (rctBasic_eq_success_iff r).mpr (BitVec.eq_of_toNat_eq hsuccess)
  · exact rctBasic_unknown (by omega)

/-- Settles O24: below the success code the field at the payload index, above it no known code. -/
theorem rctPedalAndThrottleVerdict : Obligations.RctPedalAndThrottleVerdict := by
  unfold Obligations.RctPedalAndThrottleVerdict
  intro r s
  constructor
  · refine exec_rctPedal ?_ s
    split_ifs with hfield hsuccess
    · exact rctPedal_field hfield .mode
    · exact (rctPedal_eq_success_iff r).mpr (BitVec.eq_of_toNat_eq hsuccess)
    · exact rctPedal_unknown (by omega)
  · refine exec_rctThrottle ?_ s
    split_ifs with hfield hsuccess
    · exact rctThrottle_field hfield .wheelSize
    · exact (rctThrottle_eq_success_iff r).mpr (BitVec.eq_of_toNat_eq hsuccess)
    · exact rctThrottle_unknown (by omega)

end Sys2Proof.Machine
end

section
/-! The requests and the host operations of 45_session.md, each as the whole next state it leaves. -/

namespace Sys2Proof.Machine

/-- Connected and Idle, the guard lets a request pass (R286). -/
theorem guardCause_of_idle {s : State} (hconn : s.conn = true) (hneed : s.need = 0) : guardCause s = none :=
  (guardCause_none_iff s).mpr ⟨hconn, hneed⟩

/-- Connected and armed, the guard refuses with `W_BUSY` (R286). -/
theorem guardCause_of_busy {s : State} (hconn : s.conn = true) (hneed : 0 < s.need) :
    guardCause s = some (.wBusy s.ctx s.need) := by
  have hconnected : ¬ s.conn = false := by simp [hconn]
  rw [guardCause, if_neg hconnected, if_pos hneed]

/-- A refused `READ k` leaves a record and nothing else. -/
theorem requestRead_of_guardCause (k : Kind) {s : State} {c : Cause} (hguard : guardCause s = some c) :
    requestRead k s = raise c s := by
  rw [requestRead, hguard]

/-- A refused `WRITE k` leaves a record and nothing else. -/
theorem requestWrite_of_guardCause (k : Kind) {s : State} {c : Cause} (hguard : guardCause s = some c) :
    requestWrite k s = raise c s := by
  rw [requestWrite, hguard]

/-- `READ k` past the guard: the request is sent, and the assembler armed for the response (R287). -/
theorem requestRead_of_idle (k : Kind) {s : State} (hconn : s.conn = true) (hneed : s.need = 0) :
    requestRead k s = { s with
      need := Config.len k, ctx := ⟨.read, k⟩, buf := [], out := s.out ++ [.tx (readRequest k)] } := by
  rcases requestRead_cases k s with ⟨c, hrefused, _⟩ | ⟨_, _, heq⟩
  · rw [guardCause_of_idle hconn hneed] at hrefused
    cases hrefused
  · exact heq

/-- `WRITE k` past the guard, with a payload in the slot: the request is sent, and the assembler armed for the
acknowledgement (R289). -/
theorem requestWrite_of_payload {k : Kind} {s : State} {p : List Byte} (hconn : s.conn = true) (hneed : s.need = 0)
    (hslot : slotPayload s.prf k = .payload p) : requestWrite k s = { s with
      need := 2, ctx := ⟨.write, k⟩, buf := [], out := s.out ++ [.tx (writeRequest k p)] } := by
  simp only [requestWrite, guardCause_of_idle hconn hneed, hslot]
  exact fraArm_idle _ (by decide) (by decide) hneed

/-- `WRITE k` past the guard, with an empty slot (R289). -/
theorem requestWrite_of_absent {k : Kind} {s : State} (hconn : s.conn = true) (hneed : s.need = 0)
    (hslot : slotPayload s.prf k = .absent) : requestWrite k s = raise (.wNoRecord k) s := by
  simp only [requestWrite, guardCause_of_idle hconn hneed, hslot]

/-- `WRITE k` past the guard, with a record that cannot be encoded (R289). -/
theorem requestWrite_of_encErr {k : Kind} {s : State} (hconn : s.conn = true) (hneed : s.need = 0)
    (hslot : slotPayload s.prf k = .encErr) : requestWrite k s = raise (.wEncRange k) s := by
  simp only [requestWrite, guardCause_of_idle hconn hneed, hslot]

/-- WRITE finds no Basic record. -/
theorem slotPayload_basic_absent {q : Profile} (hslot : q.basic = none) : slotPayload q .basic = .absent := by
  simp only [slotPayload, hslot]

/-- WRITE finds a Basic record that cannot be encoded. -/
theorem slotPayload_basic_encErr {q : Profile} {r : BasicRecord} (hslot : q.basic = some r)
    (henc : encodeBasic r = none) : slotPayload q .basic = .encErr := by
  simp only [slotPayload, hslot, henc]

/-- WRITE finds the payload of a Basic record. -/
theorem slotPayload_basic {q : Profile} {r : BasicRecord} {p : List Byte} (hslot : q.basic = some r)
    (henc : encodeBasic r = some p) : slotPayload q .basic = .payload p := by
  simp only [slotPayload, hslot, henc]

/-- A PedalAssist record always has a payload. -/
theorem slotPayload_pedalAssist {q : Profile} {r : PedalRecord} (hslot : q.pedal = some r) :
    slotPayload q .pedalAssist = .payload (encodePedal r) := by
  simp only [slotPayload, hslot]

/-- A Throttle record always has a payload. -/
theorem slotPayload_throttle {q : Profile} {r : ThrottleRecord} (hslot : q.throttle = some r) :
    slotPayload q .throttle = .payload (encodeThrottle r) := by
  simp only [slotPayload, hslot]

/-- The write request of a kind, with its length byte as a number (30_encoding.md R93). -/
theorem writeRequest_of_length {p : List Byte} {n : Nat} (hp : p.length = n) (k : Kind) :
    writeRequest k p = csuAppend ([0x16#8, Config.blockId k, BitVec.ofNat 8 n] ++ p) := by
  rw [writeRequest, hp]
  rfl

/-- The write request of an encodable Basic record. -/
theorem writeRequest_basic {r : BasicRecord} {p : List Byte} (henc : encodeBasic r = some p) :
    writeRequest .basic p = csuAppend ([0x16#8, 0x52#8, 0x18#8] ++ p) :=
  writeRequest_of_length (encodeBasic_length henc) .basic

/-- The write request of a PedalAssist record. -/
theorem writeRequest_pedalAssist (r : PedalRecord) :
    writeRequest .pedalAssist (encodePedal r) = csuAppend ([0x16#8, 0x53#8, 0x0B#8] ++ encodePedal r) :=
  writeRequest_of_length (encodePedal_length r) .pedalAssist

/-- The write request of a Throttle record. -/
theorem writeRequest_throttle (r : ThrottleRecord) :
    writeRequest .throttle (encodeThrottle r) = csuAppend ([0x16#8, 0x54#8, 0x06#8] ++ encodeThrottle r) :=
  writeRequest_of_length (encodeThrottle_length r) .throttle

/-- Settles O25: `connect_cases`, the two outputs as one list. -/
theorem connectReadsGeneral : Obligations.ConnectReadsGeneral := by
  unfold Obligations.ConnectReadsGeneral
  intro s
  rcases connect_cases s with ⟨hconn, heq⟩ | ⟨hconn, heq⟩
  · exact ⟨fun h => by simp [hconn] at h, fun _ => next_congr heq⟩
  · refine ⟨fun _ => ?_, fun h => by simp [hconn] at h⟩
    rw [List.append_cons]
    exact next_congr heq

/-- Settles O26: `close_cases`. -/
theorem closeResetsTheSession : Obligations.CloseResetsTheSession := by
  unfold Obligations.CloseResetsTheSession
  intro s
  rcases close_cases s with ⟨hconn, heq⟩ | ⟨hconn, heq⟩
  · exact ⟨fun h => by simp [hconn] at h, fun _ => next_congr heq⟩
  · exact ⟨fun _ => next_congr heq, fun h => by simp [hconn] at h⟩

/-- Settles O27: `close_cases` of the state with the record. -/
theorem transportFailureLogsAndCloses : Obligations.TransportFailureLogsAndCloses := by
  unfold Obligations.TransportFailureLogsAndCloses
  intro s
  rcases close_cases (raise .eTransport s) with ⟨hconn, heq⟩ | ⟨hconn, heq⟩ <;> rw [raise_conn] at hconn
  · exact ⟨fun h => by simp [hconn] at h, fun _ => next_congr heq⟩
  · refine ⟨fun _ => ?_, fun h => by simp [hconn] at h⟩
    rw [List.append_cons]
    exact next_congr heq

/-- Settles O28: LOADPROFILE is `setProfile`, the profile written out slot by slot. -/
theorem loadProfileReplacesAllSlots : Obligations.LoadProfileReplacesAllSlots := by
  unfold Obligations.LoadProfileReplacesAllSlots
  exact fun _ _ => rfl

/-- Settles O29: `requestRead_of_idle` for each kind. -/
theorem readSendsAndArms : Obligations.ReadSendsAndArms := by
  unfold Obligations.ReadSendsAndArms
  intro s hconn hneed
  have hread (k : Kind) := next_congr (requestRead_of_idle k hconn hneed)
  exact ⟨hread .general, hread .basic, hread .pedalAssist, hread .throttle⟩

/-- Every request is refused for the guard's cause; READALL and WRITEALL have set `chain` before they ask the guard,
which does not look at it (R286, R291, R292). -/
theorem exec_request_of_guardCause {s : State} {c : Cause} (hguard : guardCause s = some c) :
    (∀ i ∈ [Instr.readInfo, .readBasic, .readPedal, .readThrottle, .writeInfo, .writeBasic, .writePedal,
      .writeThrottle], exec i s = .next { s with out := s.out ++ [.log c] }) ∧
    (∀ i ∈ [Instr.readall, .writeall], exec i s = .next { s with chain := true, out := s.out ++ [.log c] }) := by
  have hchain : guardCause (setChain true s) = some c := hguard
  have hread (k : Kind) := next_congr (requestRead_of_guardCause k hguard)
  have hwrite (k : Kind) := next_congr (requestWrite_of_guardCause k hguard)
  simp only [List.forall_mem_cons]
  exact ⟨⟨hread .general, hread .basic, hread .pedalAssist, hread .throttle, hwrite .general, hwrite .basic,
      hwrite .pedalAssist, hwrite .throttle, List.forall_mem_nil _⟩,
    next_congr (requestRead_of_guardCause .basic hchain), next_congr (requestWrite_of_guardCause .basic hchain),
    List.forall_mem_nil _⟩

/-- Settles O30: the two causes of the guard. -/
theorem requestGuardRefuses : Obligations.RequestGuardRefuses := by
  unfold Obligations.RequestGuardRefuses
  exact fun s => ⟨fun hconn => exec_request_of_guardCause (guardCause_of_not_connected hconn),
    fun hconn hneed => exec_request_of_guardCause (guardCause_of_busy hconn hneed)⟩

/-- Settles O31: READ Basic with `chain` set. -/
theorem readAllStartsTheChain : Obligations.ReadAllStartsTheChain := by
  unfold Obligations.ReadAllStartsTheChain
  intro s hconn hneed
  exact next_congr (requestRead_of_idle .basic (s := setChain true s) hconn hneed)

/-- Settles O32: WRITE Basic with `chain` set, by what WRITE finds in the slot. -/
theorem writeAllStartsTheChain : Obligations.WriteAllStartsTheChain := by
  unfold Obligations.WriteAllStartsTheChain
  refine fun s hconn hneed => ⟨fun r p hslot henc => ?_, fun hslot => ?_, fun r hslot henc => ?_⟩
  · have hsent := requestWrite_of_payload (s := setChain true s) hconn hneed (slotPayload_basic hslot henc)
    rw [writeRequest_basic henc] at hsent
    exact next_congr hsent
  · exact next_congr (requestWrite_of_absent (s := setChain true s) hconn hneed (slotPayload_basic_absent hslot))
  · exact next_congr
      (requestWrite_of_encErr (s := setChain true s) hconn hneed (slotPayload_basic_encErr hslot henc))

/-- Settles O33: `requestWrite_of_payload` for each kind, its request written out. -/
theorem writeSendsAndArms : Obligations.WriteSendsAndArms := by
  unfold Obligations.WriteSendsAndArms
  refine fun s hconn hneed => ⟨fun r p hslot henc => ?_, fun r hslot => ?_, fun r hslot => ?_⟩
  · have hsent := requestWrite_of_payload hconn hneed (slotPayload_basic hslot henc)
    rw [writeRequest_basic henc] at hsent
    exact next_congr hsent
  · have hsent := requestWrite_of_payload hconn hneed (slotPayload_pedalAssist hslot)
    rw [writeRequest_pedalAssist] at hsent
    exact next_congr hsent
  · have hsent := requestWrite_of_payload hconn hneed (slotPayload_throttle hslot)
    rw [writeRequest_throttle] at hsent
    exact next_congr hsent

end Sys2Proof.Machine
end

section
/-! The completion steps of 45_session.md: a frame outside the rule's domain, a frame that is dropped, and a frame that
ends its exchange, with the chain step behind it. -/

namespace Sys2Proof.Machine

/-- COMPLETE.READ on a frame of another length than its kind's (log entry 14). -/
theorem completeRead_of_length_ne {f : List Byte} {k : Kind} (s : State) (hlen : f.length ≠ Config.len k) :
    completeRead f k s = .fault .completionLength :=
  if_pos hlen

/-- COMPLETE.WRITE on a frame that is not two bytes long (log entry 14). -/
theorem completeWrite_of_length_ne {f : List Byte} (k : Kind) (s : State) (hlen : f.length ≠ 2) :
    completeWrite f k s = .fault .completionLength :=
  if_pos hlen

/-- An acknowledgement of General has no translator (44_result_code.md R261, log entry 14). -/
theorem completeWrite_general (c : Byte) (s : State) :
    completeWrite [0x51#8, c] .general s = .fault .noTranslator := rfl

/-- Settles O45: the three stops of the completion steps. -/
theorem completionOutsideItsDomainStops : Obligations.CompletionOutsideItsDomainStops := by
  unfold Obligations.CompletionOutsideItsDomainStops
  exact fun _ k s => ⟨completeRead_of_length_ne s, completeWrite_of_length_ne k s, fun c => completeWrite_general c s⟩

/-- A read frame that fails the inbound check is dropped with `E_RX_CHECKSUM` (R294). -/
theorem completeRead_of_rxok_false {f : List Byte} {k : Kind} {s : State} (hlen : f.length = Config.len k)
    (hverify : s.params.verifyRx = true) (hrxok : csuRxok s.params.rxSumFrom f = false) :
    completeRead f k s = .next (raise (.eRxChecksum k f) s) := by
  rw [completeRead, if_neg (not_not.mpr hlen), if_pos ⟨hverify, hrxok⟩]

/-- A read frame with another block id is dropped with `W_UNKNOWN_ID` (R295). -/
theorem completeRead_of_id_ne {f : List Byte} {k : Kind} {s : State} (hlen : f.length = Config.len k)
    (hverify : s.params.verifyRx = true → csuRxok s.params.rxSumFrom f = true) (hid : byteAt f 0 ≠ Config.blockId k) :
    completeRead f k s = .next (raise (.wUnknownId (byteAt f 0) k) s) := by
  have hpass : ¬ (s.params.verifyRx = true ∧ csuRxok s.params.rxSumFrom f = false) := by
    rintro ⟨hon, hfail⟩
    simp [hverify hon] at hfail
  rw [completeRead, if_neg (not_not.mpr hlen), if_neg hpass, if_pos hid]

/-- An acknowledgement with another block id is dropped with `W_UNKNOWN_ID` (R295). -/
theorem completeWrite_of_id_ne {f : List Byte} {k : Kind} (s : State) (hlen : f.length = Config.ackLen)
    (hid : byteAt f 0 ≠ Config.blockId k) :
    completeWrite f k s = .next (raise (.wUnknownId (byteAt f 0) k) s) := by
  rw [completeWrite, if_neg (not_not.mpr hlen), if_pos hid]

/-- Settles O42: the three frames that are dropped. -/
theorem rejectedFramesAreDropped : Obligations.RejectedFramesAreDropped := by
  unfold Obligations.RejectedFramesAreDropped
  exact fun _ _ s => ⟨completeRead_of_rxok_false, completeRead_of_id_ne, completeWrite_of_id_ne s⟩

/-- At the last block in chain order the chain step clears the flag (R283). -/
theorem chainStep_throttle (request : Kind → State → State) (s : State) :
    chainStep request .throttle s = setChain false s := rfl

/-- Under chain mode the chain step goes on to the next block (R283). -/
theorem chainStep_of_next {k k' : Kind} {s : State} (hnext : nextKind k = some k') (hchain : s.chain = true)
    (request : Kind → State → State) : chainStep request k s = request k' s := by
  simp only [chainStep, hnext, hchain, if_true]

/-- The codec's General decoder, as `decodeBlock` runs it. -/
theorem decodeBlock_general {f : List Byte} {r : GeneralRecord} (hr : decodeGeneral f = some r) :
    decodeBlock .general f = some (.general r) :=
  congrArg (Option.map Record.general) hr

/-- The Basic decoder. -/
theorem decodeBlock_basic {f : List Byte} {r : BasicRecord} (hr : decodeBasic f = some r) :
    decodeBlock .basic f = some (.basic r) :=
  congrArg (Option.map Record.basic) hr

/-- The PedalAssist decoder. -/
theorem decodeBlock_pedalAssist {f : List Byte} {r : PedalRecord} (hr : decodePedal f = some r) :
    decodeBlock .pedalAssist f = some (.pedal r) :=
  congrArg (Option.map Record.pedal) hr

/-- The Throttle decoder. -/
theorem decodeBlock_throttle {f : List Byte} {r : ThrottleRecord} (hr : decodeThrottle f = some r) :
    decodeBlock .throttle f = some (.throttle r) :=
  congrArg (Option.map Record.throttle) hr

/-- A read frame that passes both tests, without chain mode: its record is stored and reported, and nothing follows
(R296). -/
theorem completeRead_unchained {f : List Byte} {k : Kind} {s : State} {r : Record} (hr : decodeBlock k f = some r)
    (hverify : s.params.verifyRx = true → csuRxok s.params.rxSumFrom f = true) (hid : byteAt f 0 = Config.blockId k)
    (hchain : s.chain = false) : completeRead f k s = .next { s with
      prf := storeRecord s.prf r, out := s.out ++ [.ev (.blockRead k)] } := by
  have hstay := chainStep_of_chain_false requestRead k (s := emit (.blockRead k) (storeSlot r s)) hchain
  exact (completeRead_accepted hr hverify hid).trans (next_congr hstay)

/-- Under chain mode the next block is read. -/
theorem completeRead_chained {f : List Byte} {k k' : Kind} {s : State} {r : Record} (hr : decodeBlock k f = some r)
    (hverify : s.params.verifyRx = true → csuRxok s.params.rxSumFrom f = true) (hid : byteAt f 0 = Config.blockId k)
    (hnext : nextKind k = some k') (hchain : s.chain = true) (hconn : s.conn = true) (hneed : s.need = 0) :
    completeRead f k s = .next (installExpectation (Config.len k') ⟨.read, k'⟩
      (send (readRequest k') (emit (.blockRead k) (storeSlot r s)))) := by
  have hstep := chainStep_of_next (s := emit (.blockRead k) (storeSlot r s)) hnext hchain requestRead
  have hread := requestRead_of_idle k' (s := emit (.blockRead k) (storeSlot r s)) hconn hneed
  exact (completeRead_accepted hr hverify hid).trans (next_congr (hstep.trans hread))

/-- Settles O40: without chain mode `completeRead_unchained`; at Throttle the chain step clears the flag. -/
theorem readCompletionStoresTheRecord : Obligations.ReadCompletionStoresTheRecord := by
  unfold Obligations.ReadCompletionStoresTheRecord
  refine fun f s hverify => ⟨fun hlen hid hchain => ?_, fun hlen hid hchain => ?_, fun hlen hid hchain => ?_,
    fun hlen hid => ?_⟩
  · have hr : decodeGeneral f = some _ := if_pos hlen
    exact ⟨_, hr, completeRead_unchained (decodeBlock_general hr) hverify hid hchain⟩
  · have hr : decodeBasic f = some _ := if_pos hlen
    exact ⟨_, hr, completeRead_unchained (decodeBlock_basic hr) hverify hid hchain⟩
  · have hr : decodePedal f = some _ := if_pos hlen
    exact ⟨_, hr, completeRead_unchained (decodeBlock_pedalAssist hr) hverify hid hchain⟩
  · have hr : decodeThrottle f = some _ := if_pos hlen
    exact ⟨_, hr, completeRead_accepted (decodeBlock_throttle hr) hverify hid⟩

/-- Settles O41: `completeRead_chained` for each kind that has a next one, the two outputs as one list. -/
theorem readCompletionChains : Obligations.ReadCompletionChains := by
  unfold Obligations.ReadCompletionChains
  refine fun f s hverify hchain hconn hneed => ⟨fun hlen hid => ?_, fun hlen hid => ?_, fun hlen hid => ?_⟩
  · have hr : decodeGeneral f = some _ := if_pos hlen
    rw [List.append_cons]
    exact ⟨_, hr, completeRead_chained (decodeBlock_general hr) hverify hid rfl hchain hconn hneed⟩
  · have hr : decodeBasic f = some _ := if_pos hlen
    rw [List.append_cons]
    exact ⟨_, hr, completeRead_chained (decodeBlock_basic hr) hverify hid rfl hchain hconn hneed⟩
  · have hr : decodePedal f = some _ := if_pos hlen
    rw [List.append_cons]
    exact ⟨_, hr, completeRead_chained (decodeBlock_pedalAssist hr) hverify hid rfl hchain hconn hneed⟩

/-- An acknowledgement with the success code is reported, and the chain step is made (R298). -/
theorem exec_completeWrite_success {k : Kind} {c : Byte} (hsuccess : rctVerdict k c = some .success) (s : State) :
    exec (.completeWrite [Config.blockId k, c] k) s
      = .next (chainStep requestWrite k (emit (.blockWritten k none) s)) :=
  completeWrite_success (f := [Config.blockId k, c]) s rfl rfl hsuccess

/-- Under chain mode the next block is written, if it has a payload. -/
theorem completeWrite_chained {k k' : Kind} {c : Byte} {p : List Byte} {s : State}
    (hsuccess : rctVerdict k c = some .success) (hnext : nextKind k = some k') (hchain : s.chain = true)
    (hconn : s.conn = true) (hneed : s.need = 0) (hslot : slotPayload s.prf k' = .payload p) :
    completeWrite [Config.blockId k, c] k s = .next (installExpectation 2 ⟨.write, k'⟩
      (send (writeRequest k' p) (emit (.blockWritten k none) s))) := by
  have hstep := chainStep_of_next (s := emit (.blockWritten k none) s) hnext hchain requestWrite
  have hwrite := requestWrite_of_payload (s := emit (.blockWritten k none) s) hconn hneed hslot
  exact (exec_completeWrite_success hsuccess s).trans (next_congr (hstep.trans hwrite))

/-- Settles O43: the chain step does nothing without chain mode, clears it at Throttle, and is WRITE of the next block
under it. -/
theorem writeCompletionSuccess : Obligations.WriteCompletionSuccess := by
  unfold Obligations.WriteCompletionSuccess
  intro s
  have hbasic := exec_completeWrite_success (k := .basic) (c := 0x18#8) rfl s
  have hpedal := exec_completeWrite_success (k := .pedalAssist) (c := 0x0B#8) rfl s
  have hthrottle := exec_completeWrite_success (k := .throttle) (c := 0x06#8) rfl s
  refine ⟨fun hchain => ?_, fun hchain => ?_, hthrottle, fun hchain => ?_, fun hchain => ?_⟩
  · exact hbasic.trans (next_congr (chainStep_of_chain_false _ _ hchain))
  · exact hpedal.trans (next_congr (chainStep_of_chain_false _ _ hchain))
  · exact hbasic.trans (next_congr (chainStep_of_next (s := emit _ s) rfl hchain _))
  · exact hpedal.trans (next_congr (chainStep_of_next (s := emit _ s) rfl hchain _))

/-- The outputs of a rejected write, the log record before the event (R299, log entry 18). -/
def reportRejection (k : Kind) (c : Byte) (v : Verdict) (s : State) : State :=
  { s with out := s.out ++ [.log (.eWriteRejected k c), .ev (.blockWritten k (some v))] }

/-- They are the `raise` and the `emit` of COMPLETE.WRITE. -/
theorem emit_raise_eq_reportRejection (k : Kind) (c : Byte) (v : Verdict) (s : State) :
    emit (.blockWritten k (some v)) (raise (.eWriteRejected k c) s) = reportRejection k c v s := by
  rw [reportRejection, List.append_cons]
  rfl

section
/-! An acknowledgement with any other code than that of success. -/

variable {k : Kind} {c : Byte} {v : Verdict} (hv : rctVerdict k c = some v) (hfailure : v ≠ .success)
include hv hfailure

/-- The rejection is reported; only `P_WFAIL_ADVANCE` lets the chain step follow (R299). -/
theorem exec_completeWrite_failure (s : State) : exec (.completeWrite [Config.blockId k, c] k) s
    = .next (if s.params.wfailAdvance then chainStep requestWrite k (reportRejection k c v s)
      else reportRejection k c v s) := by
  rw [← emit_raise_eq_reportRejection]
  exact completeWrite_failure (f := [Config.blockId k, c]) s rfl rfl hv hfailure

/-- Nothing follows without `P_WFAIL_ADVANCE`, and nothing without chain mode. -/
theorem exec_completeWrite_failure_stops {s : State} (hstop : s.params.wfailAdvance = false ∨ s.chain = false) :
    exec (.completeWrite [Config.blockId k, c] k) s = .next (reportRejection k c v s) := by
  rw [exec_completeWrite_failure hv hfailure]
  rcases hstop with hoff | hchain
  · rw [hoff]
    rfl
  · rw [chainStep_of_chain_false requestWrite k (s := reportRejection k c v s) hchain, ite_self]

/-- With both, the next block is written. -/
theorem exec_completeWrite_failure_advances {k' : Kind} {s : State} (hnext : nextKind k = some k')
    (hadvance : s.params.wfailAdvance = true) (hchain : s.chain = true) :
    exec (.completeWrite [Config.blockId k, c] k) s = .next (requestWrite k' (reportRejection k c v s)) := by
  rw [exec_completeWrite_failure hv hfailure, if_pos hadvance,
    chainStep_of_next (s := reportRejection k c v s) hnext hchain]

end

/-- Settles O44: the code is a failure as it is not the success code of its table; Throttle has no next block to
write, so that its chain step only clears the flag. -/
theorem writeCompletionFailure : Obligations.WriteCompletionFailure := by
  unfold Obligations.WriteCompletionFailure
  intro c s
  have hbasic := mt (rctBasic_eq_success_iff c).mp
  have hpedal := mt (rctPedal_eq_success_iff c).mp
  have hthrottle := mt (rctThrottle_eq_success_iff c).mp
  refine ⟨fun hc => ?_, fun hc => ?_, fun hc => ?_, fun hc => ?_, fun hc => ?_⟩
  · exact exec_completeWrite_failure_stops (k := .basic) rfl (hbasic hc)
  · exact exec_completeWrite_failure_stops (k := .pedalAssist) rfl (hpedal hc)
  · refine (exec_completeWrite_failure (k := .throttle) rfl (hthrottle hc) s).trans ?_
    cases s.params.wfailAdvance <;> rfl
  · exact exec_completeWrite_failure_advances (k := .basic) rfl (hbasic hc) rfl
  · exact exec_completeWrite_failure_advances (k := .pedalAssist) rfl (hpedal hc) rfl

end Sys2Proof.Machine
end

section
/-! What changes the profile: LOADPROFILE, and the byte that completes a read (10_state.md R22, 45_session.md R307
(e)). -/

namespace Sys2Proof.Machine

/-- `READ k` does not touch the profile. -/
theorem requestRead_prf (k : Kind) (s : State) : (requestRead k s).prf = s.prf := by
  rcases requestRead_cases k s with ⟨c, _, heq⟩ | ⟨_, _, heq⟩ <;> rw [heq] <;> rfl

/-- `WRITE k` only reads it. -/
theorem requestWrite_prf (k : Kind) (s : State) : (requestWrite k s).prf = s.prf := by
  rcases requestWrite_cases k s with ⟨c, heq, _⟩ | ⟨p, _, _, _, _, heq⟩ <;> rw [heq] <;> rfl

/-- A chain step does not touch it when its request does not. -/
theorem chainStep_prf {request : Kind → State → State} (hrequest : ∀ k s, (request k s).prf = s.prf) (k : Kind)
    (s : State) : (chainStep request k s).prf = s.prf := by
  rcases chainStep_cases request k s with ⟨_, heq⟩ | ⟨_, _, heq⟩ | ⟨k', _, _, heq⟩ <;> rw [heq]
  · rfl
  · exact hrequest k' s

/-- CONNECT does not touch it. -/
theorem connect_prf (s : State) : (connect s).prf = s.prf := by
  rcases connect_cases s with ⟨_, heq⟩ | ⟨_, heq⟩ <;> rw [heq] <;> rfl

/-- CLOSE keeps it (R301). -/
theorem close_prf (s : State) : (close s).prf = s.prf := by
  rcases close_cases s with ⟨_, heq⟩ | ⟨_, heq⟩ <;> rw [heq]
  rfl

/-- COMPLETE.READ drops the frame, or stores the record it decodes to. -/
theorem completeRead_prf {f : List Byte} {k : Kind} {s t : State} (hcomplete : completeRead f k s = .next t) :
    t.prf = s.prf ∨ ∃ r, decodeBlock k f = some r ∧ t.prf = storeRecord s.prf r := by
  obtain ⟨_, ⟨c, rfl⟩ | ⟨r, hr, rfl⟩⟩ := completeRead_cases hcomplete
  · exact .inl rfl
  · exact .inr ⟨r, hr, chainStep_prf requestRead_prf k _⟩

/-- COMPLETE.WRITE does not touch the profile. -/
theorem completeWrite_prf {f : List Byte} {k : Kind} {s t : State} (hcomplete : completeWrite f k s = .next t) :
    t.prf = s.prf := by
  obtain ⟨_, ⟨_, rfl⟩ | ⟨_, _, rfl⟩ | ⟨v, _, _, _, ⟨_, rfl⟩ | ⟨_, rfl⟩⟩⟩ := completeWrite_cases hcomplete
  · rfl
  · exact chainStep_prf requestWrite_prf k _
  · rfl
  · exact chainStep_prf requestWrite_prf k _

/-- FEED changes the profile only with the byte that completes a read, and then by the record of the whole frame. -/
theorem feedByte_prf {b : Byte} {s t : State} (hfeed : feedByte b s = .next t) :
    t.prf = s.prf ∨ ∃ r, s.need = 1 ∧ s.ctx.dir = .read ∧ decodeBlock s.ctx.kind (s.buf ++ [b]) = some r ∧
      t.prf = storeRecord s.prf r := by
  rcases feedByte_cases b s with ⟨_, heq⟩ | ⟨_, heq⟩ | ⟨hlast, heq⟩ <;> rw [heq] at hfeed
  · cases hfeed
    exact .inl rfl
  · cases hfeed
    exact .inl rfl
  · rcases complete_cases s.ctx (s.buf ++ [b]) { s with need := 0, buf := [] } with ⟨hdir, heq⟩ | ⟨_, heq⟩ <;>
      rw [heq] at hfeed
    · exact (completeRead_prf hfeed).imp_right fun ⟨r, hr, hstored⟩ => ⟨r, hlast, hdir, hr, hstored⟩
    · have hkept := completeWrite_prf hfeed
      exact .inl hkept

/-- Settles O54: the input events, by the operation each runs. -/
theorem onlyReadsAndLoadsChangeTheProfile : Obligations.OnlyReadsAndLoadsChangeTheProfile := by
  unfold Obligations.OnlyReadsAndLoadsChangeTheProfile
  intro i s t hi hexec
  cases inputEffect_of_exec_next hi hexec with
  | connect => exact .inl (connect_prf s)
  | close => exact .inl (close_prf s)
  | tfail => exact .inl (close_prf (raise .eTransport s))
  | readall => exact .inl (requestRead_prf .basic (setChain true s))
  | writeall => exact .inl (requestWrite_prf .basic (setChain true s))
  | loadprofile q => exact .inr (.inl ⟨q, rfl, rfl⟩)
  | feed b hfeed => exact (feedByte_prf hfeed).imp_right fun ⟨r, hcompletes⟩ => .inr ⟨b, r, rfl, hcompletes⟩
  | read _ k => exact .inl (requestRead_prf k s)
  | write _ k => exact .inl (requestWrite_prf k s)
  | pure _ r => exact .inl rfl

end Sys2Proof.Machine
end

section
/-! What a step sends: one frame at most, and the block is armed for the whole response to it (45_session.md R307 (a),
(b), 20_memory.md R72). Said as a relation between two states, under a condition `P` on when a frame may be sent. -/

namespace Sys2Proof.Machine

/-- The first byte of a request of each direction (30_encoding.md R91 to R93). -/
def commandByte : Dir → Byte
  | .read => 0x11#8
  | .write => 0x16#8

/-- The block is connected and armed, with an empty buffer, for the whole response to the request `f`. -/
structure State.ArmedFor (t : State) (f : List Byte) : Prop where
  bufEmpty : t.buf = []
  needWhole : t.need = expectedLen t.ctx
  connected : t.conn = true
  block : f.getD 1 0#8 = Config.blockId t.ctx.kind
  command : f.getD 0 0#8 = commandByte t.ctx.dir

/-- From `s` to `t` nothing is sent, or `P` holds and one frame is sent, for whose response `t` is armed. -/
def SendsAtMostOne (P : Prop) (s t : State) : Prop :=
  txHistory t = txHistory s ∨ ∃ f, P ∧ txHistory t = txHistory s ++ [f] ∧ t.ArmedFor f

/-- A weaker condition. -/
theorem SendsAtMostOne.mono {P Q : Prop} (hPQ : P → Q) {s t : State} (hsends : SendsAtMostOne P s t) :
    SendsAtMostOne Q s t :=
  hsends.imp_right fun ⟨f, hP, hsent⟩ => ⟨f, hPQ hP, hsent⟩

/-- An operation after another that sent nothing. -/
theorem SendsAtMostOne.after_silent {P : Prop} {s u t : State} (hsilent : txHistory u = txHistory s)
    (hsends : SendsAtMostOne P u t) : SendsAtMostOne P s t := by
  unfold SendsAtMostOne
  rw [← hsilent]
  exact hsends

/-- A log record is no frame. -/
theorem txHistory_raise (c : Cause) (s : State) : txHistory (raise c s) = txHistory s := by
  simp [raise, txHistory_pushOut]

/-- Neither is an event. -/
theorem txHistory_emit (e : OutEvent) (s : State) : txHistory (emit e s) = txHistory s := by
  simp [emit, txHistory_pushOut]

/-- `send` appends its frame (10_state.md R40). -/
theorem txHistory_send (f : List Byte) (s : State) : txHistory (send f s) = txHistory s ++ [f] := by
  simp [send, txHistory_pushOut]

/-- A frame sent while connected, and the assembler armed for the response its two first bytes ask for. -/
theorem sendsAtMostOne_of_send {P : Prop} (hP : P) {f : List Byte} {c : Ctx} {s : State} (hconn : s.conn = true)
    (hblock : f.getD 1 0#8 = Config.blockId c.kind) (hcommand : f.getD 0 0#8 = commandByte c.dir) :
    SendsAtMostOne P s (installExpectation (expectedLen c) c (send f s)) :=
  .inr ⟨f, hP, txHistory_send f s, rfl, rfl, hconn, hblock, hcommand⟩

/-- The block byte of a read request. -/
theorem readRequest_block (k : Kind) : (readRequest k).getD 1 0#8 = Config.blockId k := by
  cases k <;> rfl

/-- The command byte of a read request. -/
theorem readRequest_command (k : Kind) : (readRequest k).getD 0 0#8 = commandByte .read := by
  cases k <;> rfl

/-- `READ k` sends only in Idle. -/
theorem requestRead_sends (k : Kind) (s : State) : SendsAtMostOne (s.need = 0) s (requestRead k s) := by
  rcases requestRead_cases k s with ⟨c, _, heq⟩ | ⟨hconn, hneed, heq⟩ <;> rw [heq]
  · exact .inl (txHistory_raise c s)
  · exact sendsAtMostOne_of_send (c := ⟨.read, k⟩) hneed hconn (readRequest_block k) (readRequest_command k)

/-- `WRITE k` sends only in Idle. -/
theorem requestWrite_sends (k : Kind) (s : State) : SendsAtMostOne (s.need = 0) s (requestWrite k s) := by
  rcases requestWrite_cases k s with ⟨c, heq, _⟩ | ⟨p, hconn, hneed, _, _, heq⟩ <;> rw [heq]
  · exact .inl (txHistory_raise c s)
  · exact sendsAtMostOne_of_send (c := ⟨.write, k⟩) hneed hconn rfl rfl

/-- A chain step makes one request at most. -/
theorem chainStep_sends {request : Kind → State → State}
    (hrequest : ∀ k s, SendsAtMostOne (s.need = 0) s (request k s)) (k : Kind) (s : State) :
    SendsAtMostOne (s.need = 0) s (chainStep request k s) := by
  rcases chainStep_cases request k s with ⟨_, heq⟩ | ⟨_, _, heq⟩ | ⟨k', _, _, heq⟩ <;> rw [heq]
  · exact .inl rfl
  · exact .inl rfl
  · exact hrequest k' s

/-- COMPLETE.READ sends only what its chain step does. -/
theorem completeRead_sends {f : List Byte} {k : Kind} {s t : State} (hcomplete : completeRead f k s = .next t) :
    SendsAtMostOne (s.need = 0) s t := by
  obtain ⟨_, ⟨c, rfl⟩ | ⟨r, _, rfl⟩⟩ := completeRead_cases hcomplete
  · exact .inl (txHistory_raise c s)
  · exact (chainStep_sends requestRead_sends k _).after_silent (txHistory_emit (.blockRead k) (storeSlot r s))

/-- COMPLETE.WRITE sends only what its chain step does. -/
theorem completeWrite_sends {f : List Byte} {k : Kind} {s t : State} (hcomplete : completeWrite f k s = .next t) :
    SendsAtMostOne (s.need = 0) s t := by
  have hrejected (v : Option Verdict) (c : Cause) :
      txHistory (emit (.blockWritten k v) (raise c s)) = txHistory s :=
    (txHistory_emit _ _).trans (txHistory_raise c s)
  obtain ⟨_, ⟨_, rfl⟩ | ⟨_, _, rfl⟩ | ⟨v, _, _, _, ⟨_, rfl⟩ | ⟨_, rfl⟩⟩⟩ := completeWrite_cases hcomplete
  · exact .inl (txHistory_raise _ s)
  · exact (chainStep_sends requestWrite_sends k _).after_silent (txHistory_emit (.blockWritten k none) s)
  · exact .inl (hrejected _ _)
  · exact (chainStep_sends requestWrite_sends k _).after_silent (hrejected _ _)

/-- FEED sends only with the byte that completes an exchange. -/
theorem feedByte_sends {b : Byte} {s t : State} (hfeed : feedByte b s = .next t) :
    SendsAtMostOne (s.need = 1) s t := by
  rcases feedByte_cases b s with ⟨_, heq⟩ | ⟨_, heq⟩ | ⟨hlast, heq⟩ <;> rw [heq] at hfeed
  · cases hfeed
    exact .inl (txHistory_raise _ s)
  · cases hfeed
    exact .inl rfl
  · have hsends : SendsAtMostOne (0 = 0) { s with need := 0, buf := [] } t := by
      rcases complete_cases s.ctx (s.buf ++ [b]) { s with need := 0, buf := [] } with ⟨_, heq⟩ | ⟨_, heq⟩ <;>
        rw [heq] at hfeed
      · exact completeRead_sends hfeed
      · exact completeWrite_sends hfeed
    exact (hsends.mono fun _ => hlast).after_silent rfl

/-- CONNECT sends only while not connected, which R36 (d) of 10_state.md has Idle. -/
theorem State.Inv.connect_sends {s : State} (hs : s.Inv) : SendsAtMostOne (s.need = 0) s (connect s) := by
  rcases connect_cases s with ⟨_, heq⟩ | ⟨hconn, heq⟩ <;> rw [heq]
  · exact .inl (txHistory_raise _ s)
  · have hneed : s.need = 0 := by
      by_contra harmed
      simp [hs.armedConnected (Nat.pos_of_ne_zero harmed)] at hconn
    have hsends := sendsAtMostOne_of_send (c := ⟨.read, .general⟩) hneed
      (s := emit (.transportState true) (setChain false (disarm (setConn true s)))) rfl
      (readRequest_block .general) (readRequest_command .general)
    exact hsends.after_silent (txHistory_emit (.transportState true) (setChain false (disarm (setConn true s))))

/-- CLOSE sends nothing. -/
theorem txHistory_close (s : State) : txHistory (close s) = txHistory s := by
  rcases close_cases s with ⟨_, heq⟩ | ⟨_, heq⟩ <;> rw [heq]
  exact txHistory_emit (.transportState false) (setConn false (setChain false (disarm s)))

/-- When an input event may send: in Idle, or as the FEED of the last byte. -/
def MaySend (i : Instr) (s : State) : Prop := s.need = 0 ∨ (s.need = 1 ∧ ∃ b, i = .feed b)

/-- The input events, by the operation each runs. -/
theorem State.Inv.exec_sends {i : Instr} {s t : State} (hs : s.Inv) (hi : isInputEvent i = true)
    (hexec : exec i s = .next t) : SendsAtMostOne (MaySend i s) s t := by
  cases inputEffect_of_exec_next hi hexec with
  | connect => exact hs.connect_sends.mono .inl
  | close => exact .inl (txHistory_close s)
  | tfail => exact .inl ((txHistory_close _).trans (txHistory_raise .eTransport s))
  | readall => exact ((requestRead_sends .basic (setChain true s)).mono .inl).after_silent rfl
  | writeall => exact ((requestWrite_sends .basic (setChain true s)).mono .inl).after_silent rfl
  | loadprofile q => exact .inl rfl
  | feed b hfeed => exact (feedByte_sends hfeed).mono fun hlast => .inr ⟨hlast, b, rfl⟩
  | read _ k => exact (requestRead_sends k s).mono .inl
  | write _ k => exact (requestWrite_sends k s).mono .inl
  | pure _ r => exact .inl rfl

/-- A step sends what the event it handles does. -/
theorem State.Inv.step_sends {s t : State} (hs : s.Inv) (hstep : step s = .next t) :
    SendsAtMostOne (s.need = 0 ∨ (s.need = 1 ∧ ∃ b rest, s.input = ⟨[0x06#8, b], .none⟩ :: rest)) s t := by
  rcases step_cases hstep with ⟨_, rfl⟩ | ⟨e, rest, i, hinput, hdecode, hexec⟩ | ⟨e, rest, c, _, _, rfl⟩
  · exact .inl rfl
  · have hsends := (hs.after_setInput rest).exec_sends (isInputEvent_of_decodeEvent hdecode) hexec
    refine (hsends.after_silent rfl).mono (Or.imp_right fun ⟨hlast, b, hfeed⟩ => ⟨hlast, b, rest, ?_⟩)
    subst hfeed
    cases encode_of_decodeEvent hdecode
    exact hinput
  · exact .inl rfl

/-- No response is empty. -/
theorem expectedLen_pos (c : Ctx) : 0 < expectedLen c := by
  obtain ⟨dir, k⟩ := c
  cases dir with
  | read => exact (len_legal k).1
  | write => exact show 0 < Config.ackLen by decide

/-- Settles O55: `State.Inv.step_sends`; a response is never empty, so the block is armed for it. -/
theorem everySendArmsForItsResponse : Obligations.EverySendArmsForItsResponse := by
  unfold Obligations.EverySendArmsForItsResponse
  intro s t hs hstep
  refine (hs.step_sends hstep).imp_right fun ⟨f, hwhen, hsent, harmed⟩ => ?_
  obtain ⟨hbuf, hneed, hconn, hblock, hcommand⟩ := harmed
  have hpos : 0 < t.need := hneed ▸ expectedLen_pos t.ctx
  exact ⟨f, hsent, hwhen, hpos, hbuf, hneed, hconn, hblock, hcommand⟩

end Sys2Proof.Machine
end

section
/-! The chains of READALL and WRITEALL as runs of the machine (45_session.md R282, R307 (c), (d)): the first request,
then one exchange after another, each from one state of the chain to the next. -/

namespace Sys2Proof.Machine

/-- A run of any machine whose first `m` steps give a next state goes on from it. -/
theorem run_add_of_next {M : Host.Core} {m : Nat} {s t : M.State} (hrun : M.run m s = .next t) (n : Nat) :
    M.run (m + n) s = M.run n t := by
  induction m generalizing s with
  | zero =>
    cases hrun
    rw [Nat.zero_add]
  | succ m ih =>
    rw [Nat.add_right_comm]
    cases hstep : M.step s with
    | next u =>
      rw [run_succ_of_next hstep] at hrun ⊢
      exact ih hrun
    | fault r =>
      rw [run_succ_of_fault hstep] at hrun
      cases hrun
    | refused r =>
      rw [run_succ_of_refused hstep] at hrun
      cases hrun

/-- In the middle of a chain: the flag set, and armed for the whole response of `c`. -/
def inChain (c : Ctx) (s : State) : State := installExpectation (expectedLen c) c (setChain true s)

/-- At the end of a chain whose last exchange was that of `c`: the flag clear, and Idle. -/
def chainEnded (c : Ctx) (s : State) : State := setChain false (disarm (inChain c s))

/-- It differs from the state before in the session only. -/
theorem chainEnded_eq (c : Ctx) (s : State) :
    chainEnded c s = { s with need := 0, ctx := c, buf := [], chain := false } := rfl

/-- The whole response of a context, fed in the middle of a chain, runs its completion step on the disarmed
assembler. -/
theorem run_response_inChain {c : Ctx} {f : List Byte} {rest : List Event} {s t : State}
    (hlen : f.length = expectedLen c) (hcomplete : complete c f (disarm (inChain c (setInput rest s))) = .next t)
    (n : Nat) : core.run (expectedLen c + n) (inChain c (setInput (rxEvents f ++ rest) s)) = core.run n t := by
  have hf : f ≠ [] := List.length_pos_iff.mp (hlen ▸ expectedLen_pos c)
  have hfeed : feedBytes f (inChain c (setInput rest s)) = .next t :=
    (feedBytes_completing hf hlen.symm).trans hcomplete
  rw [← hlen]
  exact run_add_of_next (M := core) ((run_rxEvents f rest (inChain c s)).trans hfeed) n

/-- The outputs and the profile of a chain after the record `r` of kind `k`, when block `k'` is read next (R296). -/
def readOn (k k' : Kind) (r : Record) (s : State) : State :=
  send (readRequest k') (emit (.blockRead k) (storeSlot r s))

/-- The outputs of a chain after the write of kind `k`, when block `k'` is written next with the payload `p` (R298). -/
def writeOn (k k' : Kind) (p : List Byte) (s : State) : State :=
  send (writeRequest k' p) (emit (.blockWritten k none) s)

/-- A read response of the chain: the next block is read. -/
theorem run_read_inChain {k k' : Kind} {f : List Byte} {r : Record} {s : State} (hr : decodeBlock k f = some r)
    (hverify : s.params.verifyRx = true → csuRxok s.params.rxSumFrom f = true) (hid : f.getD 0 0#8 = Config.blockId k)
    (hnext : nextKind k = some k') (hconn : s.conn = true) (rest : List Event) (n : Nat) :
    core.run (Config.len k + n) (inChain ⟨.read, k⟩ (setInput (rxEvents f ++ rest) s))
      = core.run n (inChain ⟨.read, k'⟩ (setInput rest (readOn k k' r s))) := by
  have hcomplete := completeRead_chained (s := disarm (inChain ⟨.read, k⟩ (setInput rest s))) hr hverify hid hnext rfl
    hconn rfl
  exact run_response_inChain (c := ⟨.read, k⟩) (length_of_decodeBlock hr) hcomplete n

/-- Throttle is the last block to be read. -/
theorem run_readThrottle_inChain {f : List Byte} {r : Record} {s : State} (hr : decodeBlock .throttle f = some r)
    (hverify : s.params.verifyRx = true → csuRxok s.params.rxSumFrom f = true) (hid : f.getD 0 0#8 = 0x54#8)
    (rest : List Event) (n : Nat) :
    core.run (9 + n) (inChain ⟨.read, .throttle⟩ (setInput (rxEvents f ++ rest) s))
      = core.run n (chainEnded ⟨.read, .throttle⟩ (setInput rest (emit (.blockRead .throttle) (storeSlot r s)))) := by
  have hcomplete := completeRead_accepted (k := .throttle) (s := disarm (inChain ⟨.read, .throttle⟩ (setInput rest s)))
    hr hverify hid
  exact run_response_inChain (c := ⟨.read, .throttle⟩) (length_of_decodeBlock hr) hcomplete n

/-- A success acknowledgement of the chain: the next block is written, if it has a payload. -/
theorem run_write_inChain {k k' : Kind} {c : Byte} {p : List Byte} {s : State}
    (hsuccess : rctVerdict k c = some .success) (hnext : nextKind k = some k') (hconn : s.conn = true)
    (hslot : slotPayload s.prf k' = .payload p) (rest : List Event) (n : Nat) :
    core.run (2 + n) (inChain ⟨.write, k⟩ (setInput (rxEvents [Config.blockId k, c] ++ rest) s))
      = core.run n (inChain ⟨.write, k'⟩ (setInput rest (writeOn k k' p s))) := by
  have hcomplete := completeWrite_chained (s := disarm (inChain ⟨.write, k⟩ (setInput rest s))) hsuccess hnext rfl hconn
    rfl hslot
  exact run_response_inChain (c := ⟨.write, k⟩) (f := [Config.blockId k, c]) rfl hcomplete n

/-- Throttle is the last block to be written. -/
theorem run_writeThrottle_inChain (s : State) (rest : List Event) (n : Nat) :
    core.run (2 + n) (inChain ⟨.write, .throttle⟩ (setInput (rxEvents [0x54#8, 0x06#8] ++ rest) s))
      = core.run n (chainEnded ⟨.write, .throttle⟩ (setInput rest (emit (.blockWritten .throttle none) s))) := by
  have hcomplete := exec_completeWrite_success (k := .throttle) (c := 0x06#8) rfl
    (disarm (inChain ⟨.write, .throttle⟩ (setInput rest s)))
  exact run_response_inChain (c := ⟨.write, .throttle⟩) (f := [0x54#8, 0x06#8]) rfl hcomplete n

/-- READALL is the first step of its chain (R291). -/
theorem run_readall {s : State} (hconn : s.conn = true) (hneed : s.need = 0) (rest : List Event) (n : Nat) :
    core.run (n + 1) (setInput (⟨[0x03#8], .none⟩ :: rest) s)
      = core.run n (inChain ⟨.read, .basic⟩ (setInput rest (send [0x11#8, 0x52#8] s))) := by
  have hstep := step_of_decodeEvent_ok (s := setInput (⟨[0x03#8], .none⟩ :: rest) s) (i := .readall) rfl rfl
  exact run_succ_next (hstep.trans (readAllStartsTheChain (setInput rest s) hconn hneed))

/-- WRITEALL is the first step of its chain (R292). -/
theorem run_writeall {r : BasicRecord} {p : List Byte} {s : State} (hconn : s.conn = true) (hneed : s.need = 0)
    (hslot : s.prf.basic = some r) (henc : encodeBasic r = some p) (rest : List Event) (n : Nat) :
    core.run (n + 1) (setInput (⟨[0x04#8], .none⟩ :: rest) s)
      = core.run n (inChain ⟨.write, .basic⟩ (setInput rest (send (csuAppend ([0x16#8, 0x52#8, 0x18#8] ++ p)) s))) := by
  have hstep := step_of_decodeEvent_ok (s := setInput (⟨[0x04#8], .none⟩ :: rest) s) (i := .writeall) rfl rfl
  obtain ⟨hsent, _, _⟩ := writeAllStartsTheChain (setInput rest s) hconn hneed
  exact run_succ_next (hstep.trans (hsent r p hslot henc))

/-- Settles O59: READALL, two responses that have the next block read, and the one that ends the chain. -/
theorem readAllRunsTheWholeChain : Obligations.ReadAllRunsTheWholeChain := by
  unfold Obligations.ReadAllRunsTheWholeChain
  intro b p h s hconn hneed _ hunverified hb hp hh
  obtain ⟨rb, hrb⟩ : ∃ rb, decodeBasic (0x52#8 :: b) = some rb := ⟨_, if_pos (congrArg (· + 1) hb)⟩
  obtain ⟨rp, hrp⟩ : ∃ rp, decodePedal (0x53#8 :: p) = some rp := ⟨_, if_pos (congrArg (· + 1) hp)⟩
  obtain ⟨rh, hrh⟩ : ∃ rh, decodeThrottle (0x54#8 :: h) = some rh := ⟨_, if_pos (congrArg (· + 1) hh)⟩
  have hverify (f : List Byte) : s.params.verifyRx = true → csuRxok s.params.rxSumFrom f = true := by
    rw [hunverified]
    nofun
  have hstart := run_readall hconn hneed
    (rxEvents (0x52#8 :: b) ++ (rxEvents (0x53#8 :: p) ++ (rxEvents (0x54#8 :: h) ++ []))) 50
  have hbasic := run_read_inChain (s := send [0x11#8, 0x52#8] s) (decodeBlock_basic hrb) (hverify _) rfl rfl hconn
    (rxEvents (0x53#8 :: p) ++ (rxEvents (0x54#8 :: h) ++ [])) 23
  have hpedal := run_read_inChain (s := readOn .basic .pedalAssist (.basic rb) (send [0x11#8, 0x52#8] s))
    (decodeBlock_pedalAssist hrp) (hverify _) rfl rfl hconn (rxEvents (0x54#8 :: h) ++ []) 9
  have hthrottle := run_readThrottle_inChain (s := readOn .pedalAssist .throttle (.pedal rp)
    (readOn .basic .pedalAssist (.basic rb) (send [0x11#8, 0x52#8] s))) (decodeBlock_throttle hrh) (hverify _) rfl [] 0
  refine ⟨rb, rp, rh, hrb, hrp, hrh, ?_⟩
  rw [List.append_assoc, ← List.append_nil (rxEvents (0x54#8 :: h))]
  refine (hstart.trans (hbasic.trans (hpedal.trans hthrottle))).trans (next_congr ?_)
  iterate 5 rw [List.append_cons]
  rfl

/-- Settles O60: WRITEALL, two acknowledgements that have the next block written, and the one that ends the chain. -/
theorem writeAllRunsTheWholeChain : Obligations.WriteAllRunsTheWholeChain := by
  unfold Obligations.WriteAllRunsTheWholeChain
  intro rb rp rh pb s hconn hneed _ hbasic henc hpedal hthrottle
  have hstart := run_writeall hconn hneed hbasic henc
    (rxEvents [0x52#8, 0x18#8] ++ (rxEvents [0x53#8, 0x0B#8] ++ (rxEvents [0x54#8, 0x06#8] ++ []))) 6
  have hackBasic := run_write_inChain (k := .basic) (c := 0x18#8)
    (s := send (csuAppend ([0x16#8, 0x52#8, 0x18#8] ++ pb)) s) rfl rfl hconn (slotPayload_pedalAssist hpedal)
    (rxEvents [0x53#8, 0x0B#8] ++ (rxEvents [0x54#8, 0x06#8] ++ [])) 4
  have hackPedal := run_write_inChain (k := .pedalAssist) (c := 0x0B#8)
    (s := writeOn .basic .pedalAssist (encodePedal rp) (send (csuAppend ([0x16#8, 0x52#8, 0x18#8] ++ pb)) s)) rfl rfl
    hconn (slotPayload_throttle hthrottle) (rxEvents [0x54#8, 0x06#8] ++ []) 2
  have hackThrottle := run_writeThrottle_inChain (writeOn .pedalAssist .throttle (encodeThrottle rh)
    (writeOn .basic .pedalAssist (encodePedal rp) (send (csuAppend ([0x16#8, 0x52#8, 0x18#8] ++ pb)) s))) [] 0
  rw [List.append_assoc, ← List.append_nil (rxEvents [0x54#8, 0x06#8])]
  refine (hstart.trans (hackBasic.trans (hackPedal.trans hackThrottle))).trans (next_congr ?_)
  rw [writeOn, writeOn, writeRequest_pedalAssist, writeRequest_throttle]
  simp only [chainEnded_eq, setInput, emit, send, pushOut, List.append_assoc, List.cons_append, List.nil_append]

end Sys2Proof.Machine
end

section
/-! What the port yields, the three refusals of WRITE past the guard, and how many causes an input event raises
(60_exceptions.md R360, R347 to R349, R356). The last is said as a relation between two states that bounds the log
records between them, so that it adds up along the operations an event runs. -/

namespace Sys2Proof.Machine

/-- Settles O6: `isInputEvent_of_decodeEvent`. -/
theorem onlyInputEventsAreDecodedFromThePort : Obligations.OnlyInputEventsAreDecodedFromThePort := by
  unfold Obligations.OnlyInputEventsAreDecodedFromThePort
  exact fun _ _ hdecode => isInputEvent_of_decodeEvent hdecode

/-- `WRITE info` past the guard (R347). -/
theorem requestWrite_general_of_idle {s : State} (hconn : s.conn = true) (hneed : s.need = 0) :
    requestWrite .general s = raise .wGeneralWrite s := by
  simp only [requestWrite, guardCause_of_idle hconn hneed, slotPayload_general]

/-- WRITE finds no PedalAssist record. -/
theorem slotPayload_pedalAssist_absent {q : Profile} (hslot : q.pedal = none) :
    slotPayload q .pedalAssist = .absent := by
  simp only [slotPayload, hslot]

/-- WRITE finds no Throttle record. -/
theorem slotPayload_throttle_absent {q : Profile} (hslot : q.throttle = none) :
    slotPayload q .throttle = .absent := by
  simp only [slotPayload, hslot]

/-- Settles O34: the request by what WRITE finds in the slot. -/
theorem writeRefusals : Obligations.WriteRefusals := by
  unfold Obligations.WriteRefusals
  intro s hconn hneed
  have habsent {k : Kind} (hslot : slotPayload s.prf k = .absent) :=
    next_congr (requestWrite_of_absent hconn hneed hslot)
  refine ⟨next_congr (requestWrite_general_of_idle hconn hneed), fun hslot => ?_, fun hslot => ?_, fun hslot => ?_,
    fun r hslot henc => ?_⟩
  · exact habsent (slotPayload_basic_absent hslot)
  · exact habsent (slotPayload_pedalAssist_absent hslot)
  · exact habsent (slotPayload_throttle_absent hslot)
  · exact next_congr (requestWrite_of_encErr hconn hneed (slotPayload_basic_encErr hslot henc))

/-- From `s` to `t` outputs are appended, with at most `n` log records among them. -/
def RaisesAtMost (n : Nat) (s t : State) : Prop :=
  ∃ new, t.out = s.out ++ new ∧ (new.filterMap logOf).length ≤ n

/-- An update of other fields than the outputs. -/
theorem raisesAtMost_of_out_eq {n : Nat} {s t : State} (hout : t.out = s.out) : RaisesAtMost n s t :=
  ⟨[], by rw [hout, List.append_nil], Nat.zero_le n⟩

/-- One output is one record at most. -/
theorem raisesAtMost_one_of_output {o : Output} {s t : State} (hout : t.out = s.out ++ [o]) : RaisesAtMost 1 s t :=
  ⟨[o], hout, List.length_filterMap_le logOf [o]⟩

/-- A frame or an event is no record. -/
theorem raisesAtMost_of_silent_output {n : Nat} {o : Output} {s t : State} (hsilent : logOf o = none)
    (hout : t.out = s.out ++ [o]) : RaisesAtMost n s t :=
  ⟨[o], hout, by simp [hsilent]⟩

/-- The records of one operation after another add up. -/
theorem RaisesAtMost.trans {m n : Nat} {s t u : State} (hst : RaisesAtMost m s t) (htu : RaisesAtMost n t u) :
    RaisesAtMost (m + n) s u := by
  obtain ⟨first, hfirst, hm⟩ := hst
  obtain ⟨second, hsecond, hn⟩ := htu
  refine ⟨first ++ second, by rw [hsecond, hfirst, List.append_assoc], ?_⟩
  rw [List.filterMap_append, List.length_append]
  exact Nat.add_le_add hm hn

/-- An operation after another that raised nothing. -/
theorem RaisesAtMost.after_silent {n : Nat} {s t u : State} (htu : RaisesAtMost n t u) (hst : RaisesAtMost 0 s t) :
    RaisesAtMost n s u :=
  Nat.zero_add n ▸ hst.trans htu

/-- `READ k` gives one output: the record it is refused with, or its request. -/
theorem requestRead_raises (k : Kind) (s : State) : RaisesAtMost 1 s (requestRead k s) := by
  rcases requestRead_cases k s with ⟨c, _, heq⟩ | ⟨_, _, heq⟩ <;> rw [heq] <;> exact raisesAtMost_one_of_output rfl

/-- `WRITE k` gives one output: the record it is refused with, or its request. -/
theorem requestWrite_raises (k : Kind) (s : State) : RaisesAtMost 1 s (requestWrite k s) := by
  rcases requestWrite_cases k s with ⟨c, heq, _⟩ | ⟨p, _, _, _, _, heq⟩ <;> rw [heq] <;>
    exact raisesAtMost_one_of_output rfl

/-- A chain step makes one request at most. -/
theorem chainStep_raises {request : Kind → State → State} (hrequest : ∀ k s, RaisesAtMost 1 s (request k s))
    (k : Kind) (s : State) : RaisesAtMost 1 s (chainStep request k s) := by
  rcases chainStep_cases request k s with ⟨_, heq⟩ | ⟨_, _, heq⟩ | ⟨k', _, _, heq⟩ <;> rw [heq]
  · exact raisesAtMost_of_out_eq rfl
  · exact raisesAtMost_of_out_eq rfl
  · exact hrequest k' s

/-- CONNECT warns, or gives an event and a request. -/
theorem connect_raises (s : State) : RaisesAtMost 1 s (connect s) := by
  rcases connect_cases s with ⟨_, heq⟩ | ⟨_, heq⟩ <;> rw [heq]
  · exact raisesAtMost_one_of_output rfl
  · have hreported : RaisesAtMost 0 s (emit (.transportState true) (setChain false (disarm (setConn true s)))) :=
      raisesAtMost_of_silent_output rfl rfl
    exact (raisesAtMost_one_of_output rfl).after_silent hreported

/-- CLOSE raises nothing. -/
theorem close_raises (n : Nat) (s : State) : RaisesAtMost n s (close s) := by
  rcases close_cases s with ⟨_, heq⟩ | ⟨_, heq⟩ <;> rw [heq]
  · exact raisesAtMost_of_out_eq rfl
  · exact raisesAtMost_of_silent_output rfl rfl

/-- COMPLETE.READ drops the frame with a record, or reports the block and makes the chain step. -/
theorem completeRead_raises {f : List Byte} {k : Kind} {s t : State} (hcomplete : completeRead f k s = .next t) :
    RaisesAtMost 1 s t := by
  obtain ⟨_, ⟨c, rfl⟩ | ⟨r, _, rfl⟩⟩ := completeRead_cases hcomplete
  · exact raisesAtMost_one_of_output rfl
  · have hreported : RaisesAtMost 0 s (emit (.blockRead k) (storeSlot r s)) := raisesAtMost_of_silent_output rfl rfl
    exact (chainStep_raises requestRead_raises k _).after_silent hreported

/-- The causes a WRITE is refused for past the busy test, for another block than General. -/
def IsChainRefusal (k : Kind) (s : State) (c : Cause) : Prop :=
  c = .wNoRecord k ∨ c = .wEncRange k ∨ (s.conn = false ∧ c = .wNotConnected)

/-- In Idle, the WRITE of another block than General raises nothing, or one of these causes. -/
theorem requestWrite_refusal {k : Kind} {s : State} (hneed : s.need = 0) (hk : k ≠ .general) :
    RaisesAtMost 0 s (requestWrite k s) ∨ ∃ c, IsChainRefusal k s c ∧ requestWrite k s = raise c s := by
  rcases requestWrite_cases k s with ⟨c, heq, hcause⟩ | ⟨p, _, _, _, _, heq⟩
  · refine .inr ⟨c, ?_, heq⟩
    rcases hcause with hconn | ⟨hbusy, _⟩ | ⟨hgeneral, _⟩ | ⟨_, hc⟩ | ⟨_, hc⟩
    · exact .inr (.inr hconn)
    · omega
    · exact absurd hgeneral hk
    · exact .inl hc
    · exact .inr (.inl hc)
  · rw [heq]
    exact .inl (raisesAtMost_of_silent_output rfl rfl)

/-- The exception of R356: the code `b` rejects the write of `k`, and under `P_WFAIL_ADVANCE` and `chain` the WRITE of
the next block is refused behind it. -/
def RejectedIntoRefusal (k : Kind) (b : Byte) (s t : State) : Prop :=
  s.params.wfailAdvance = true ∧ s.chain = true ∧
  ∃ v k' c, rctVerdict k b = some v ∧ v ≠ .success ∧ nextKind k = some k' ∧ IsChainRefusal k' s c ∧
    t.out = s.out ++ [.log (.eWriteRejected k b), .ev (.blockWritten k (some v)), .log c]

/-- General is no other block's next (45_session.md R283). -/
theorem nextKind_ne_general {k k' : Kind} (hnext : nextKind k = some k') : k' ≠ .general := by
  rintro rfl
  cases k <;> cases hnext

/-- A rejection is one record and its event. -/
theorem reportRejection_raises (k : Kind) (b : Byte) (v : Verdict) (s : State) :
    RaisesAtMost 1 s (reportRejection k b v s) :=
  ⟨_, rfl, Nat.le_refl 1⟩

/-- The chain step after a rejected write: nothing more is raised, or the exception of R356 is met. -/
theorem chainStep_after_rejection {k : Kind} {b : Byte} {v : Verdict} {s : State} (hneed : s.need = 0)
    (hadvance : s.params.wfailAdvance = true) (hv : rctVerdict k b = some v) (hfailure : v ≠ .success) :
    RaisesAtMost 1 s (chainStep requestWrite k (reportRejection k b v s)) ∨
      RejectedIntoRefusal k b s (chainStep requestWrite k (reportRejection k b v s)) := by
  have hreported := reportRejection_raises k b v s
  rcases chainStep_cases requestWrite k (reportRejection k b v s) with
    ⟨_, heq⟩ | ⟨_, _, heq⟩ | ⟨k', hnext, hchain, heq⟩ <;> rw [heq]
  · exact .inl hreported
  · exact .inl hreported
  · rcases requestWrite_refusal (s := reportRejection k b v s) hneed (nextKind_ne_general hnext) with
      hsent | ⟨c, hrefusal, heq⟩
    · exact .inl (hreported.trans hsent)
    · rw [heq]
      exact .inr ⟨hadvance, hchain, v, k', c, hv, hfailure, hnext, hrefusal, List.append_assoc _ _ _⟩

/-- COMPLETE.WRITE in Idle: one record at most, but for the exception of R356. -/
theorem completeWrite_raises {f : List Byte} {k : Kind} {s t : State} (hneed : s.need = 0)
    (hcomplete : completeWrite f k s = .next t) :
    RaisesAtMost 1 s t ∨ RejectedIntoRefusal k (byteAt f 1) s t := by
  obtain ⟨_, ⟨_, rfl⟩ | ⟨_, _, rfl⟩ | ⟨v, _, hv, hfailure, hrejected⟩⟩ := completeWrite_cases hcomplete
  · exact .inl (raisesAtMost_one_of_output rfl)
  · have hreported : RaisesAtMost 0 s (emit (.blockWritten k none) s) := raisesAtMost_of_silent_output rfl rfl
    exact .inl ((chainStep_raises requestWrite_raises k _).after_silent hreported)
  · rw [emit_raise_eq_reportRejection] at hrejected
    obtain ⟨_, rfl⟩ | ⟨hadvance, rfl⟩ := hrejected
    · exact .inl (reportRejection_raises k _ v s)
    · exact chainStep_after_rejection hneed hadvance hv hfailure

/-- The code of an acknowledgement is the byte that completes it. -/
theorem byteAt_one_of_length_two {buf : List Byte} {b : Byte} (hlen : (buf ++ [b]).length = 2) :
    byteAt (buf ++ [b]) 1 = b := by
  have hlast := (byteAt_last_take_init buf b).1
  rwa [hlen] at hlast

/-- FEED raises one record at most, but for the exception of R356 on the byte that completes a write. -/
theorem feedByte_raises {b : Byte} {s t : State} (hfeed : feedByte b s = .next t) :
    RaisesAtMost 1 s t ∨ (s.need = 1 ∧ s.ctx.dir = .write ∧ RejectedIntoRefusal s.ctx.kind b s t) := by
  rcases feedByte_cases b s with ⟨_, heq⟩ | ⟨_, heq⟩ | ⟨hneed, heq⟩ <;> rw [heq] at hfeed
  · cases hfeed
    exact .inl (raisesAtMost_one_of_output rfl)
  · cases hfeed
    exact .inl (raisesAtMost_of_out_eq rfl)
  · rcases complete_cases s.ctx (s.buf ++ [b]) { s with need := 0, buf := [] } with ⟨_, heq⟩ | ⟨hdir, heq⟩ <;>
      rw [heq] at hfeed
    · exact .inl ((completeRead_raises hfeed).after_silent (raisesAtMost_of_out_eq rfl))
    · have hcode := byteAt_one_of_length_two (completeWrite_cases hfeed).1
      have hraises := completeWrite_raises rfl hfeed
      rw [hcode] at hraises
      exact hraises.imp_right fun hrefused => ⟨hneed, hdir, hrefused⟩

/-- The input events, by the operation each runs. -/
theorem exec_raises {i : Instr} {s t : State} (hi : isInputEvent i = true) (hexec : exec i s = .next t) :
    RaisesAtMost 1 s t ∨
      ∃ b, i = .feed b ∧ s.need = 1 ∧ s.ctx.dir = .write ∧ RejectedIntoRefusal s.ctx.kind b s t := by
  cases inputEffect_of_exec_next hi hexec with
  | connect => exact .inl (connect_raises s)
  | close => exact .inl (close_raises 1 s)
  | tfail =>
    have hlogged : RaisesAtMost 1 s (raise .eTransport s) := raisesAtMost_one_of_output rfl
    exact .inl (hlogged.trans (close_raises 0 _))
  | readall => exact .inl (requestRead_raises .basic (setChain true s))
  | writeall => exact .inl (requestWrite_raises .basic (setChain true s))
  | loadprofile q => exact .inl (raisesAtMost_of_out_eq rfl)
  | feed b hfeed => exact (feedByte_raises hfeed).imp_right fun hrefused => ⟨b, rfl, hrefused⟩
  | read _ k => exact .inl (requestRead_raises k s)
  | write _ k => exact .inl (requestWrite_raises k s)
  | pure _ r => exact .inl (raisesAtMost_of_out_eq rfl)

/-- Settles O58: `exec_raises`, the exception taken apart into the outputs R356 gives it. -/
theorem atMostOneCausePerOperation : Obligations.AtMostOneCausePerOperation := by
  unfold Obligations.AtMostOneCausePerOperation
  intro i s t hi hexec
  rcases exec_raises hi hexec with ⟨new, hout, hone⟩ | ⟨b, rfl, hneed, hdir, hadvance, hchain, hrefused⟩
  · exact ⟨new, hout, .inl hone⟩
  · obtain ⟨v, k', c, hv, hfailure, hnext, hcause, hout⟩ := hrefused
    exact ⟨_, hout,
      .inr ⟨b, v, k', c, rfl, hneed, hdir, hadvance, hchain, hv, hfailure, hnext, rfl, hcause⟩⟩

end Sys2Proof.Machine
end
